-- ==== Sys2Proof/Word.lean ====
section
/-! DEFINITION. The word types of the block (spec/00_scope.md R10, R11). -/

namespace Sys2Proof

/-- A byte is 8 bits everywhere (R10, R46). -/
abbrev Byte := BitVec 8

/-- A sequence number, an unsigned integer of exactly 12 bits (R119). -/
abbrev Seq := BitVec 12

/-- A CRC value, 32 bits (R6, R8). -/
abbrev Crc := BitVec 32

end Sys2Proof
end

