-- ==== Sys2Proof/Config.lean ====
section
/-! DEFINITION. What an implementation fixes (spec/00_scope.md R6, R7, R8): the parameters, as plain data that State carries,
and the free values, which have no body. -/

namespace Sys2Proof

/-- Which function the parameter CRC of R8 is: the toy sum `CRC_T` of 92_eei_decisions.md D59, or a free function, one for
each number.  DESIGN CHOICE (log entry 2), safe for the free ones: nothing is known of them but that they are functions. -/
inductive CrcKind where
  | toySum
  | free (k : Nat)
deriving DecidableEq, Repr

/-- The parameters of R7.  R44: they are fixed when the block is built, no rule changes them.  `maxPayload` has the
document's reference value 512 as its default (R7). -/
structure Params where
  nSlots      : Nat
  rxCap       : Nat
  maxPayload  : Nat := 512
  replayLimit : Nat
  ackLimit    : Nat
  crc         : CrcKind
deriving DecidableEq, Repr

/-- The ranges of R7: every number is at least 1. -/
def Params.wf (p : Params) : Bool :=
  decide (1 ≤ p.nSlots) && decide (1 ≤ p.rxCap) && decide (1 ≤ p.maxPayload) &&
    decide (1 ≤ p.replayLimit) && decide (1 ≤ p.ackLimit)

/-- The instantiation of 92_eei_decisions.md D59, the only complete one the spec names. -/
def Config.d59 : Params :=
  { nSlots := 2, rxCap := 2, maxPayload := 4, replayLimit := 16, ackLimit := 8, crc := .toySum }

/-- R6: the half-window threshold. -/
def Config.half : Nat := 2048

/-- The CRC primitive that the document leaves open (R8, P-CRC): a function of the byte sequence alone, with no body.
`k` numbers the functions, so that a statement over every `k` is one over every such function. -/
opaque Config.freeCrc (k : Nat) (bytes : List Byte) : Crc

/-- The byte a read past the end of `rp_bytes` gives (log entry 17): the spec gives no such byte, and no state that a run
reaches asks for one (93_implementation_defined.md U17). -/
opaque Config.freeByte (pos : Nat) : Byte

end Sys2Proof
end

