-- ==== Sys2Proof/Syntax.lean ====
section
/-! DEFINITION. The operations of the block (spec/opcode_table.json, 30_encoding.md R105), one constructor per row, and the
named states their conditions speak of. -/

namespace Sys2Proof

/-- R29: `RC_IDLE = 0`, `RC_REPLAYING = 1`. -/
inductive RcState where
  | idle | replaying
deriving DecidableEq, Repr

/-- R30: the framer's position, `F_IDLE = 0` to `F_CRC3 = 6`; the code 7 is never taken and has no name here (U15). -/
inductive FrState where
  | idle | hdr1 | payload | crc0 | crc1 | crc2 | crc3
deriving DecidableEq, Repr

/-- R31: `RX_IDLE = 0`, `RX_RECEIVING = 1`, `RX_VALIDATING = 2`, `RX_WAITSPACE = 3`. -/
inductive RxState where
  | idle | receiving | validating | waitspace
deriving DecidableEq, Repr

/-- R102: the class of a validated frame, `Accept = 0` to `Corrupt = 3`. -/
inductive VClass where
  | accept | duplicate | gap | corrupt
deriving DecidableEq, Repr

/-- The two delete ports of R101: A names a range of ids (acknowledgement), B one id (nullification). -/
inductive DelReq where
  | portA (lo hi : Seq)
  | portB (id : Seq)
deriving DecidableEq, Repr

/-- The two phases of `RB.SEND` (R149): the start, selected by the send port's word, and one beat, selected by
`rp_busy = 1`. -/
inductive SendReq where
  | start (id : Seq)
  | beat
deriving DecidableEq, Repr

/-- The 48 operations.  An operand is a field of the operation's word or an argument of its function. -/
inductive Instr where
  -- 40_seq_arith.md
  | seqDist (a b : Seq)
  | seqInc (a : Seq)
  | seqDec (a : Seq)
  | seqOldeq (ref id : Seq)
  | seqPrecedes (x y : Seq)
  | seqWinopen (nts lastAcked : Seq)
  -- 41_retry_buffer.md
  | rbStore (id : Seq) (bytes : List Byte)
  | rbDelete (req : DelReq)
  | rbContains (id : Seq)
  | rbCount
  | rbSend (req : SendReq)
  | rbSendall
  -- 42_tx_engine.md, the framer
  | txStart
  | txHdr1
  | txData (last : Bool) (data : Byte)
  | txNullify
  | txCrc
  | txOverlen (data : Byte)
  | txAbort
  | txComplete
  -- 42_tx_engine.md, the replay controller
  | txReplayEnter
  | txReplayDrop
  | txReplayExit
  | txReplayPassend
  | txReplaySend
  | txReplayAgain
  | txReplaySkip
  | txReplayNext
  -- 42_tx_engine.md, the acknowledgement logic and the timer
  | txAck (id : Seq)
  | txAckIgnored (id : Seq)
  | txNak (id : Seq)
  | txNakIgnored (id : Seq)
  | txTimeout
  -- 43_rx_engine.md
  | rxStart (eof bad : Bool) (data : Byte)
  | rxStray
  | rxData (data : Byte)
  | rxEnd (data : Byte)
  | rxTrunc (data : Byte)
  | rxAccept
  | rxDup
  | rxGap
  | rxCorrupt
  | rxSpace
  | ctlSend (positive : Bool) (id : Seq)
  | rxKeepalive
  | rxqPop
  -- 44_sync_link.md
  | linkDown (rst linkUp : Bool)
  | status
deriving DecidableEq, Repr

end Sys2Proof
end

