-- ==== Sys2Proof/WellFormed.lean ====
section
/-! DEFINITION. Which operations are well formed for a given build (spec/30_encoding.md R101, R104, 41_retry_buffer.md
R141, 44_sync_link.md R262).  Every other operand of every operation may take every value of its width. -/

namespace Sys2Proof

/-- R141: a stored frame has 6 to MAX_FRAME bytes, MAX_FRAME being MAX_PAYLOAD + 6 (R7).  R262: LINK.DOWN is the word
`{rst, link_up}` with `rst = 1` or `link_up = 0`. -/
def Instr.wf (p : Params) : Instr → Bool
  | .rbStore _ bytes => decide (6 ≤ bytes.length) && decide (bytes.length ≤ p.maxPayload + 6)
  | .linkDown rst linkUp => rst || !linkUp
  | .seqDist _ _ => true
  | .seqInc _ => true
  | .seqDec _ => true
  | .seqOldeq _ _ => true
  | .seqPrecedes _ _ => true
  | .seqWinopen _ _ => true
  | .rbDelete _ => true
  | .rbContains _ => true
  | .rbCount => true
  | .rbSend _ => true
  | .rbSendall => true
  | .txStart => true
  | .txHdr1 => true
  | .txData _ _ => true
  | .txNullify => true
  | .txCrc => true
  | .txOverlen _ => true
  | .txAbort => true
  | .txComplete => true
  | .txReplayEnter => true
  | .txReplayDrop => true
  | .txReplayExit => true
  | .txReplayPassend => true
  | .txReplaySend => true
  | .txReplayAgain => true
  | .txReplaySkip => true
  | .txReplayNext => true
  | .txAck _ => true
  | .txAckIgnored _ => true
  | .txNak _ => true
  | .txNakIgnored _ => true
  | .txTimeout => true
  | .rxStart _ _ _ => true
  | .rxStray => true
  | .rxData _ => true
  | .rxEnd _ => true
  | .rxTrunc _ => true
  | .rxAccept => true
  | .rxDup => true
  | .rxGap => true
  | .rxCorrupt => true
  | .rxSpace => true
  | .ctlSend _ _ => true
  | .rxKeepalive => true
  | .rxqPop => true
  | .status => true

end Sys2Proof
end

