-- ==== Sys2Proof/Decode.lean ====
section
/-! DEFINITION. Interface words (spec/30_encoding.md R90 to R105): their fields, the decoder, which is total on every word of
every port and rejects by name, and after it the encoder.  The port a word stands on gives its format (R90, R105); the part of
an operation's encoding that is a condition on the registers (00_scope.md R5, R103) reaches the decoder as a `DecodeCtx`. -/

namespace Sys2Proof

/-! ### The words and their fields -/

/-- R91: `CW[13:0] = {valid, positive, id[11:0]}`. -/
def ctlWord (valid positive : Bool) (id : Seq) : BitVec 14 :=
  BitVec.ofBool valid ++ BitVec.ofBool positive ++ id

def ctlWordValid (w : BitVec 14) : Bool := w.getLsbD 13
def ctlWordPositive (w : BitVec 14) : Bool := w.getLsbD 12
def ctlWordId (w : BitVec 14) : Seq := w.extractLsb' 0 12

/-- R93: `BW[11:0] = {valid, sof, eof, bad, data[7:0]}`. -/
def beatWord (valid sof eof bad : Bool) (data : Byte) : BitVec 12 :=
  BitVec.ofBool valid ++ BitVec.ofBool sof ++ BitVec.ofBool eof ++ BitVec.ofBool bad ++ data

def beatWordValid (w : BitVec 12) : Bool := w.getLsbD 11
def beatWordSof (w : BitVec 12) : Bool := w.getLsbD 10
def beatWordEof (w : BitVec 12) : Bool := w.getLsbD 9
def beatWordBad (w : BitVec 12) : Bool := w.getLsbD 8
def beatWordData (w : BitVec 12) : Byte := w.extractLsb' 0 8

/-- R95: `UW[9:0] = {valid, last, data[7:0]}`. -/
def upWord (valid last : Bool) (data : Byte) : BitVec 10 :=
  BitVec.ofBool valid ++ BitVec.ofBool last ++ data

def upWordValid (w : BitVec 10) : Bool := w.getLsbD 9
def upWordLast (w : BitVec 10) : Bool := w.getLsbD 8
def upWordData (w : BitVec 10) : Byte := w.extractLsb' 0 8

/-- R101: the words `{st_valid, st_id}`, `{db_valid, db_id}` and `{sd_valid, sd_id}` of the retry buffer's ports. -/
def reqWord (valid : Bool) (id : Seq) : BitVec 13 := BitVec.ofBool valid ++ id

def reqWordValid (w : BitVec 13) : Bool := w.getLsbD 12
def reqWordId (w : BitVec 13) : Seq := w.extractLsb' 0 12

/-- R101: the word `{da_valid, da_from, da_to}` of delete port A. -/
def rangeWord (valid : Bool) (lo hi : Seq) : BitVec 25 := BitVec.ofBool valid ++ lo ++ hi

def rangeWordValid (w : BitVec 25) : Bool := w.getLsbD 24
def rangeWordLo (w : BitVec 25) : Seq := w.extractLsb' 12 12
def rangeWordHi (w : BitVec 25) : Seq := w.extractLsb' 0 12

/-- R262: the word `{rst, link_up}`. -/
def linkWord (rst linkUp : Bool) : BitVec 2 := BitVec.ofBool rst ++ BitVec.ofBool linkUp

def linkWordRst (w : BitVec 2) : Bool := w.getLsbD 1
def linkWordUp (w : BitVec 2) : Bool := w.getLsbD 0

/-- R102: the 2-bit code of a class. -/
def VClass.code : VClass → BitVec 2
  | .accept => 0
  | .duplicate => 1
  | .gap => 2
  | .corrupt => 3

def VClass.ofCode (w : BitVec 2) : VClass :=
  if w = 0 then .accept else if w = 1 then .duplicate else if w = 2 then .gap else .corrupt

/-- R29, R30, R31: the codes of the three state registers. -/
def RcState.code : RcState → BitVec 1
  | .idle => 0
  | .replaying => 1

def FrState.code : FrState → BitVec 3
  | .idle => 0
  | .hdr1 => 1
  | .payload => 2
  | .crc0 => 3
  | .crc1 => 4
  | .crc2 => 5
  | .crc3 => 6

def RxState.code : RxState → BitVec 2
  | .idle => 0
  | .receiving => 1
  | .validating => 2
  | .waitspace => 3

/-! ### Ports and the part of the registers that selects an operation -/

/-- A word on the port it stands on.  `ctlOut` is the outgoing control word, which the block produces (R239). -/
inductive PortWord where
  | up (w : BitVec 10)
  | beat (w : BitVec 12)
  | ctl (w : BitVec 14)
  | store (w : BitVec 13) (bytes : List Byte)
  | delA (w : BitVec 25)
  | delB (w : BitVec 13)
  | query (w : BitVec 12)
  | send (w : BitVec 13)
  | vc (w : BitVec 2)
  | ctlOut (w : BitVec 14)
  | pop (w : BitVec 1)
  | link (w : BitVec 2)
deriving DecidableEq, Repr

/-- What the framer does with the upper layer's word: nothing (R173), look for a first byte (every term of `can_start` but
`in.up_valid` holds, R172), or take payload (R175), `atMax` being that the next byte is byte number MAX_PAYLOAD (R178). -/
inductive UpPhase where
  | shut
  | opening
  | payload (atMax : Bool)
deriving DecidableEq, Repr

/-- The conditions on start-of-tick registers that the column `cond` of spec/opcode_table.json adds to a word:
`passBusy` is `pass_live or pass_start` (R190). -/
structure DecodeCtx where
  up       : UpPhase
  rx       : RxState
  unacked  : List Seq
  passBusy : Bool
deriving DecidableEq, Repr

/-- Why a word selects no operation (R104): its valid bit is 0; the framer does not look at the upper layer's word; the
receive engine does not take the beat (`rx_ready = 0`); the link is up. -/
inductive Reject where
  | portIdle
  | byteIgnored
  | beatHeld
  | linkIsUp
deriving DecidableEq, Repr

inductive Decoded where
  | instr (i : Instr)
  | rejected (r : Reject)
deriving DecidableEq, Repr

def Decoded.toList : Decoded → List Instr
  | .instr i => [i]
  | .rejected _ => []

def Decoded.toOption : Decoded → Option Instr
  | .instr i => some i
  | .rejected _ => none

/-! ### The decoder -/

/-- R172, R173, R175, R176, R178: the upper layer's word. -/
def decodeUp (c : DecodeCtx) (w : BitVec 10) : Decoded :=
  match c.up with
  | .shut => .rejected .byteIgnored
  | .opening => if upWordValid w then .instr .txStart else .rejected .portIdle
  | .payload atMax =>
    if upWordValid w then
      if !upWordLast w && atMax then .instr (.txOverlen (upWordData w))
      else .instr (.txData (upWordLast w) (upWordData w))
    else .instr .txNullify

/-- R220 to R225: a beat of the incoming frame stream.  `sof` is ignored inside a frame and `bad` without `eof`. -/
def decodeBeat (c : DecodeCtx) (w : BitVec 12) : Decoded :=
  if beatWordValid w then
    match c.rx with
    | .idle =>
      if beatWordSof w then .instr (.rxStart (beatWordEof w) (beatWordBad w) (beatWordData w)) else .instr .rxStray
    | .receiving =>
      if beatWordEof w then
        if beatWordBad w then .instr (.rxTrunc (beatWordData w)) else .instr (.rxEnd (beatWordData w))
      else .instr (.rxData (beatWordData w))
    | .validating => .rejected .beatHeld
    | .waitspace => .rejected .beatHeld
  else .rejected .portIdle

/-- R204 to R208: a control message from the peer. -/
def decodeCtl (c : DecodeCtx) (w : BitVec 14) : Decoded :=
  if ctlWordValid w then
    if ctlWordPositive w then
      if c.unacked.contains (ctlWordId w) then .instr (.txAck (ctlWordId w)) else .instr (.txAckIgnored (ctlWordId w))
    else if c.passBusy then .instr (.txNakIgnored (ctlWordId w))
    else .instr (.txNak (ctlWordId w))
  else .rejected .portIdle

/-- R102, R226: the class of the frame under validation. -/
def decodeClass (w : BitVec 2) : Instr :=
  match VClass.ofCode w with
  | .accept => .rxAccept
  | .duplicate => .rxDup
  | .gap => .rxGap
  | .corrupt => .rxCorrupt

/-- The operation a word selects on its port (R105), or the name of the reason it selects none (R104). -/
def decode (c : DecodeCtx) : PortWord → Decoded
  | .up w => decodeUp c w
  | .beat w => decodeBeat c w
  | .ctl w => decodeCtl c w
  | .store w bytes => if reqWordValid w then .instr (.rbStore (reqWordId w) bytes) else .rejected .portIdle
  | .delA w =>
    if rangeWordValid w then .instr (.rbDelete (.portA (rangeWordLo w) (rangeWordHi w))) else .rejected .portIdle
  | .delB w => if reqWordValid w then .instr (.rbDelete (.portB (reqWordId w))) else .rejected .portIdle
  | .query w => .instr (.rbContains w)
  | .send w => if reqWordValid w then .instr (.rbSend (.start (reqWordId w))) else .rejected .portIdle
  | .vc w => .instr (decodeClass w)
  | .ctlOut w =>
    if ctlWordValid w then .instr (.ctlSend (ctlWordPositive w) (ctlWordId w)) else .rejected .portIdle
  | .pop w => if w.getLsbD 0 then .instr .rxqPop else .rejected .portIdle
  | .link w =>
    if linkWordRst w || !linkWordUp w then .instr (.linkDown (linkWordRst w) (linkWordUp w)) else .rejected .linkIsUp

/-! ### The encoder -/

/-- The word of an operation on its port, from the column "encoding" of spec/opcode_table.json, ignored bits 0.  `none`: the
operation has no word (formats `function`, `macro`, `COND` and `outputs` of R90, R105; `RB.SEND` streaming, R151). -/
def encode : Instr → Option PortWord
  | .seqDist _ _ => none
  | .seqInc _ => none
  | .seqDec _ => none
  | .seqOldeq _ _ => none
  | .seqPrecedes _ _ => none
  | .seqWinopen _ _ => none
  | .rbStore id bytes => some (.store (reqWord true id) bytes)
  | .rbDelete (.portA lo hi) => some (.delA (rangeWord true lo hi))
  | .rbDelete (.portB id) => some (.delB (reqWord true id))
  | .rbContains id => some (.query id)
  | .rbCount => none
  | .rbSend (.start id) => some (.send (reqWord true id))
  | .rbSend .beat => none
  | .rbSendall => none
  | .txStart => some (.up (upWord true false 0))
  | .txHdr1 => none
  | .txData last data => some (.up (upWord true last data))
  | .txNullify => some (.up (upWord false false 0))
  | .txCrc => none
  | .txOverlen data => some (.up (upWord true false data))
  | .txAbort => none
  | .txComplete => none
  | .txReplayEnter => none
  | .txReplayDrop => none
  | .txReplayExit => none
  | .txReplayPassend => none
  | .txReplaySend => none
  | .txReplayAgain => none
  | .txReplaySkip => none
  | .txReplayNext => none
  | .txAck id => some (.ctl (ctlWord true true id))
  | .txAckIgnored id => some (.ctl (ctlWord true true id))
  | .txNak id => some (.ctl (ctlWord true false id))
  | .txNakIgnored id => some (.ctl (ctlWord true false id))
  | .txTimeout => none
  | .rxStart eof bad data => some (.beat (beatWord true true eof bad data))
  | .rxStray => some (.beat (beatWord true false false false 0))
  | .rxData data => some (.beat (beatWord true false false false data))
  | .rxEnd data => some (.beat (beatWord true false true false data))
  | .rxTrunc data => some (.beat (beatWord true false true true data))
  | .rxAccept => some (.vc (VClass.code .accept))
  | .rxDup => some (.vc (VClass.code .duplicate))
  | .rxGap => some (.vc (VClass.code .gap))
  | .rxCorrupt => some (.vc (VClass.code .corrupt))
  | .rxSpace => none
  | .ctlSend positive id => some (.ctlOut (ctlWord true positive id))
  | .rxKeepalive => none
  | .rxqPop => some (.pop 1)
  | .linkDown rst linkUp => some (.link (linkWord rst linkUp))
  | .status => none

/-- The conditions on the registers that the column "cond" of spec/opcode_table.json adds to the word of an operation.
True for the operations whose word alone selects them, and for those that have no word. -/
def DecodeCtx.admits (c : DecodeCtx) : Instr → Bool
  | .txStart => c.up == .opening
  | .txData last _ => c.up == .payload false || (last && c.up == .payload true)
  | .txNullify => c.up == .payload false || c.up == .payload true
  | .txOverlen _ => c.up == .payload true
  | .txAck id => c.unacked.contains id
  | .txAckIgnored id => !c.unacked.contains id
  | .txNak _ => !c.passBusy
  | .txNakIgnored _ => c.passBusy
  | .rxStart _ _ _ => c.rx == .idle
  | .rxStray => c.rx == .idle
  | .rxData _ => c.rx == .receiving
  | .rxEnd _ => c.rx == .receiving
  | .rxTrunc _ => c.rx == .receiving
  | .seqDist _ _ => true
  | .seqInc _ => true
  | .seqDec _ => true
  | .seqOldeq _ _ => true
  | .seqPrecedes _ _ => true
  | .seqWinopen _ _ => true
  | .rbStore _ _ => true
  | .rbDelete _ => true
  | .rbContains _ => true
  | .rbCount => true
  | .rbSend _ => true
  | .rbSendall => true
  | .txHdr1 => true
  | .txCrc => true
  | .txAbort => true
  | .txComplete => true
  | .txReplayEnter => true
  | .txReplayDrop => true
  | .txReplayExit => true
  | .txReplayPassend => true
  | .txReplaySend => true
  | .txReplayAgain => true
  | .txReplaySkip => true
  | .txReplayNext => true
  | .txTimeout => true
  | .rxAccept => true
  | .rxDup => true
  | .rxGap => true
  | .rxCorrupt => true
  | .rxSpace => true
  | .ctlSend _ _ => true
  | .rxKeepalive => true
  | .rxqPop => true
  | .linkDown _ _ => true
  | .status => true

/-! ### A word of the opcode table alone

A row's word names neither its port nor the registers that select the operation, and several rows have the same word.  The
port is read off the width and the top bit (each word of R91, R93, R95 and R101 has its valid bit on top), and the registers
are taken to be ones in which a row of that word is selected.  DESIGN CHOICE (log entry 7); the machine itself never decodes
so: it knows the port and the registers. -/

/-- Six bytes of zeros, the shortest frame R141 stores: the table gives `st_bytes` no bits. -/
def zeroFrame : List Byte := [0, 0, 0, 0, 0, 0]

/-- The port and word of a table row's bits. -/
def tablePortWord (nbits w : Nat) : Option PortWord :=
  if nbits ≤ 8 then
    if w < 4 then some (.vc (BitVec.ofNat 2 w)) else none
  else if nbits ≤ 16 then
    if w < 2 ^ 10 then some (.up (BitVec.ofNat 10 w))
    else if w < 2 ^ 11 then none
    else if w < 2 ^ 12 then some (.beat (BitVec.ofNat 12 w))
    else if w < 2 ^ 13 then some (.store (BitVec.ofNat 13 w) zeroFrame)
    else if w < 2 ^ 14 then some (.ctl (BitVec.ofNat 14 w))
    else none
  else if w < 2 ^ 25 then some (.delA (BitVec.ofNat 25 w))
  else none

/-- Registers in which a row of the word is selected: `opening` for a valid upper-layer word, `payload` for an invalid one;
`RX_IDLE` for a beat with the start marker, else `RX_RECEIVING`; the id of an ACK outstanding; no pass for a NAK. -/
def tableCtx : PortWord → DecodeCtx
  | .up w => { up := if upWordValid w then .opening else .payload false, rx := .idle, unacked := [], passBusy := false }
  | .beat w =>
    { up := .opening, rx := if beatWordSof w then .idle else .receiving, unacked := [], passBusy := false }
  | .ctl w => { up := .opening, rx := .idle, unacked := [ctlWordId w], passBusy := false }
  | _ => { up := .opening, rx := .idle, unacked := [], passBusy := false }

/-- The operation of a table row's word. -/
def decodeTableWord (nbits w : Nat) : Option Instr :=
  match tablePortWord nbits w with
  | some pw => (decode (tableCtx pw) pw).toOption
  | none => none

end Sys2Proof
end

