-- ==== Sys2Proof/Machine/State.lean ====
section
/-! DEFINITION. The state of the block (spec/10_state.md), as plain data, and its reset value (R20, R49).

`cur` are the registers of R20 at the start of the tick and `nxt` what they will be at the start of the next one: R60, every
rule reads the one and writes the other.  The rest is the model's own: what the environment will put on the input ports, what
the tick is doing (request ports, delete list), and what it drove (outputs, results of the pure operations). -/

namespace Sys2Proof.Machine

/-- R37: a slot of the retry buffer.  `id` and `bytes` have a meaning only while `occ` is true (R50). -/
structure Slot where
  occ   : Bool
  id    : Seq
  bytes : List Byte
deriving DecidableEq, Repr

/-- R41: an entry of the receive queue, payload without header and trailer (R245). -/
structure RxEntry where
  id      : Seq
  payload : List Byte
deriving DecidableEq, Repr

/-- The architectural registers, every row of R20. -/
structure Regs where
  nts          : Seq
  lastAcked    : Seq
  unacked      : List Seq
  replayTimer  : Nat
  replayCount  : BitVec 2
  rcState      : RcState
  replayReq    : Bool
  frState      : FrState
  txStage      : List Byte
  txCrc        : Crc
  txNull       : Bool
  rpPass       : Bool
  rpId         : Seq
  rpBusy       : Bool
  rpBytes      : List Byte
  rpPos        : Nat
  slots        : List Slot
  nrs          : Seq
  rxState      : RxState
  rxStage      : List Byte
  rxTrunc      : Bool
  rxOversize   : Bool
  nakScheduled : Bool
  ackTimer     : Nat
  ctlPending   : Bool
  ctlPositive  : Bool
  ctlId        : Seq
  rxq          : List RxEntry
deriving DecidableEq, Repr

/-- The input ports of one tick (R51), as the words of R91, R93, R95 and the single bits of R106. -/
structure Line where
  rst        : Bool
  linkUp     : Bool
  uw         : BitVec 10
  txReady    : Bool
  bw         : BitVec 12
  cw         : BitVec 14
  ctlTxReady : Bool
  rxqPop     : Bool
deriving DecidableEq, Repr

/-- The idle values of R106. -/
def Line.idle : Line :=
  { rst := false, linkUp := true, uw := 0, txReady := true, bw := 0, cw := 0, ctlTxReady := true, rxqPop := false }

/-- The output ports (R43, R52). -/
structure PortOut where
  upReady       : Bool
  txValid       : Bool
  txData        : Byte
  txSof         : Bool
  txEof         : Bool
  txBad         : Bool
  rxReady       : Bool
  ctlTxValid    : Bool
  ctlTxPositive : Bool
  ctlTxId       : Seq
  rxqValid      : Bool
  rxqId         : Seq
  rxqBytes      : List Byte
  dlUp          : Bool
  stTxSeq       : Seq
  stRxSeq       : Seq
  stRbCount     : Nat
  stRxqCount    : Nat
  stReplayCount : BitVec 2
  stRbFull      : Bool
  stRbEmpty     : Bool
deriving DecidableEq, Repr

/-- R263: every output 0, `rxq_bytes` empty. -/
def PortOut.zero : PortOut :=
  { upReady := false, txValid := false, txData := 0, txSof := false, txEof := false, txBad := false, rxReady := false,
    ctlTxValid := false, ctlTxPositive := false, ctlTxId := 0, rxqValid := false, rxqId := 0, rxqBytes := [],
    dlUp := false, stTxSeq := 0, stRxSeq := 0, stRbCount := 0, stRxqCount := 0, stReplayCount := 0, stRbFull := false,
    stRbEmpty := false }

/-- The request ports of the retry buffer within a tick (R101).  R140: a request is never queued across ticks. -/
structure RbqPorts where
  store      : BitVec 13
  storeBytes : List Byte
  delA       : BitVec 25
  delB       : BitVec 13
  query      : BitVec 12
  send       : BitVec 13
deriving DecidableEq, Repr

/-- No request raised: every valid bit 0. -/
def RbqPorts.idle : RbqPorts := { store := 0, storeBytes := [], delA := 0, delB := 0, query := 0, send := 0 }

/-- R146: which requester a serviced delete is recorded for. -/
inductive DelCause where
  | acknowledgement
  | nullification
deriving DecidableEq, Repr

/-- What the operations that only compute answer: the 12-bit and 1-bit results of R120 to R125, `q_hit` (R144), and
`rb_count`, `rb_full`, `rb_empty` (R145). -/
structure Answers where
  seqResult  : Seq
  testResult : Bool
  qHit       : Bool
  rbCount    : Nat
  rbFull     : Bool
  rbEmpty    : Bool
deriving DecidableEq, Repr

def Answers.none : Answers :=
  { seqResult := 0, testResult := false, qHit := false, rbCount := 0, rbFull := false, rbEmpty := false }

/-- The state.  See INVENTORY.md, heading State, for the rule that names each part. -/
structure State where
  par    : Params
  cur    : Regs
  nxt    : Regs
  req    : RbqPorts
  dels   : List (Seq × DelCause)
  schedd : Bool
  ans    : Answers
  out    : PortOut
  inputs : List Line
deriving DecidableEq, Repr

/-- No operation of the block faults: it has no trap (60_exceptions.md R287, 00_scope.md R11), so there is no constructor and
a fault is never answered.  The type is closed and empty, which is safe only as far as R287 is right. -/
inductive Fault where
deriving DecidableEq, Repr

/-- Why a step or an instruction is refused. -/
inductive Refusal where
  /-- Raised by `exec` for an instruction that has no meaning yet; no arm of this model raises it.  Safe: nothing is claimed. -/
  | notModelled (mnemonic : String)
  /-- Raised by `step` for parameters outside the ranges of R7 (93_implementation_defined.md U26: the model takes the ranges as
  preconditions; the spec says nothing about a block built outside them).  Safe: nothing is claimed of such a block. -/
  | parametersOutOfRange
deriving DecidableEq, Repr

/-- A free slot.  R50: `id` and `bytes` are unspecified after reset; 0 and empty are a DESIGN CHOICE (log entry 3). -/
def Slot.free : Slot := { occ := false, id := 0, bytes := [] }

/-- R20, column reset; R49. -/
def Regs.reset (p : Params) : Regs :=
  { nts := 0, lastAcked := 4095, unacked := [], replayTimer := 0, replayCount := 0, rcState := .idle, replayReq := false,
    frState := .idle, txStage := [], txCrc := 0, txNull := false, rpPass := false, rpId := 0, rpBusy := false,
    rpBytes := [], rpPos := 0, slots := List.replicate p.nSlots Slot.free, nrs := 0, rxState := .idle, rxStage := [],
    rxTrunc := false, rxOversize := false, nakScheduled := false, ackTimer := 0, ctlPending := false,
    ctlPositive := false, ctlId := 0, rxq := [] }

/-- The reset state of a block built with parameters `p`, with `lines` still to come on its input ports. -/
def State.resetWith (p : Params) (lines : List Line) : State :=
  { par := p, cur := Regs.reset p, nxt := Regs.reset p, req := RbqPorts.idle, dels := [], schedd := false,
    ans := Answers.none, out := PortOut.zero, inputs := lines }

/-- The machine right after reset (R49, R320).  The parameters are OPEN in the spec; here they are the instantiation D59
(DESIGN CHOICE, log entry 1), and no input line is placed (log entry 5). -/
def State.reset : State := State.resetWith Config.d59 []

end Sys2Proof.Machine
end

