-- ==== Sys2Proof/Machine/Operands.lean ====
section
/-! DEFINITION. Operands: sequence arithmetic (spec/40_seq_arith.md), frame bytes and fields (30_encoding.md R96, R97), the
input ports of the tick (10_state.md R51), slots by id (20_memory.md R69, R70). -/

namespace Sys2Proof.Machine

/-! ### Sequence arithmetic -/

/-- R120: `dist(a, b) = (a - b) mod 4096`. -/
def seqDist (a b : Seq) : Seq := a - b

/-- R121: `inc(a) = (a + 1) mod 4096`. -/
def seqInc (a : Seq) : Seq := a + 1

/-- R122: `dec(a) = (a - 1) mod 4096`. -/
def seqDec (a : Seq) : Seq := a - 1

/-- R123: `oldeq(ref, i) = (dist(ref, i) <= 2048)`. -/
def seqOldeq (ref i : Seq) : Bool := decide ((seqDist ref i).toNat ≤ Config.half)

/-- R124: `precedes(x, y) = (x != y) and (dist(y, x) <= 2048)`. -/
def seqPrecedes (x y : Seq) : Bool := x != y && decide ((seqDist y x).toNat ≤ Config.half)

/-- R125: `win_open = (dist(nts, last_acked) < 2048)`. -/
def seqWinopen (nts lastAcked : Seq) : Bool := decide ((seqDist nts lastAcked).toNat < Config.half)

/-- R143, R101: the ids from `lo` to `hi` in sequence order, both included. -/
def seqRange (lo hi : Seq) : List Seq :=
  (List.range ((seqDist hi lo).toNat + 1)).map fun k => lo + BitVec.ofNat 12 k

/-! ### Bytes of a frame -/

/-- R10: `be32(v)`, most significant byte first. -/
def be32 (v : Crc) : List Byte :=
  [v.extractLsb' 24 8, v.extractLsb' 16 8, v.extractLsb' 8 8, v.extractLsb' 0 8]

/-- R10: `unbe32(s)` on a four-byte sequence. -/
def unbe32 (s : List Byte) : Crc :=
  s.getD 0 0 ++ s.getD 1 0 ++ s.getD 2 0 ++ s.getD 3 0

/-- R64, R96: header byte 0, `(4'b0000, id[11:8])`. -/
def hdrByte0 (id : Seq) : Byte := (0 : BitVec 4) ++ id.extractLsb' 8 4

/-- R64, R96: header byte 1, `id[7:0]`. -/
def hdrByte1 (id : Seq) : Byte := id.extractLsb' 0 8

/-- R64: the two header bytes. -/
def header (id : Seq) : List Byte := [hdrByte0 id, hdrByte1 id]

/-- R96: `FRAME(i, p, c)`. -/
def frameBytes (id : Seq) (payload : List Byte) (c : Crc) : List Byte :=
  header id ++ payload ++ be32 c

/-- D59: `CRC_T(s)`, the sum of the bytes of `s` modulo 2^32. -/
def toySum (bytes : List Byte) : Crc :=
  BitVec.ofNat 32 (bytes.foldl (fun n b => n + b.toNat) 0)

/-- R8: the parameter CRC. -/
def crcOf (kind : CrcKind) (bytes : List Byte) : Crc :=
  match kind with
  | .toySum => toySum bytes
  | .free k => Config.freeCrc k bytes

/-- R7: `MAX_FRAME = MAX_PAYLOAD + 6`. -/
def maxFrame (p : Params) : Nat := p.maxPayload + 6

/-- R97: `rx_id(f) = (f[0][3:0], f[1][7:0])`. -/
def rxId (f : List Byte) : Seq := (f.getD 0 0).extractLsb' 0 4 ++ f.getD 1 0

/-- R97: `rx_payload(f) = f[2 .. L-4)`. -/
def rxPayload (f : List Byte) : List Byte := (f.take (f.length - 4)).drop 2

/-- R97: `rx_trailer(f) = unbe32(f[L-4 .. L))`. -/
def rxTrailer (f : List Byte) : Crc := unbe32 (f.drop (f.length - 4))

/-- R97: `rx_covered(f) = f[0 .. L-4)`. -/
def rxCovered (f : List Byte) : List Byte := f.take (f.length - 4)

/-! ### The input ports of the tick -/

/-- The input line of this tick; when the list is used up, the idle line of R106 (DESIGN CHOICE, log entry 5). -/
def State.line (s : State) : Line := s.inputs.headD Line.idle

/-- R262: the link is up and `rst` is 0, so that the other rules of the spec apply in this tick. -/
def Line.live (l : Line) : Bool := l.linkUp && !l.rst

/-! ### Slots by id -/

/-- R36: the number of occupied slots. -/
def occCount (slots : List Slot) : Nat := slots.countP fun sl => sl.occ

/-- R70: `find(i)`, the number of the occupied slot that holds `i`.  DESIGN CHOICE (log entry 17): where two occupied slots hold
`i` it is the lowest of them.  R70 leaves the order of the scan open, no run reaches such a state (R38, R48 (c)), and U17 promises
nothing of it. -/
def find (slots : List Slot) (i : Seq) : Option Nat := slots.findIdx? fun sl => sl.occ && sl.id == i

/-- R69: the lowest slot with `occ = 0`. -/
def firstFree (slots : List Slot) : Option Nat := slots.findIdx? fun sl => !sl.occ

end Sys2Proof.Machine
end

