-- ==== Sys2Proof/Machine/Flags.lean ====
section
/-! DEFINITION. Derived flags (spec/10_state.md R36) and the conditions that select operations (42_tx_engine.md R172, R190,
R210, 43_rx_engine.md R228, R240): functions of the start-of-tick registers and the input line, with no state of their own. -/

namespace Sys2Proof.Machine

/-! ### Derived flags, R36 -/

def State.rbCount (s : State) : Nat := occCount s.cur.slots
def State.rbFull (s : State) : Bool := s.rbCount == s.par.nSlots
def State.rbEmpty (s : State) : Bool := s.rbCount == 0
def State.rxqCount (s : State) : Nat := s.cur.rxq.length
def State.rxqFull (s : State) : Bool := s.rxqCount == s.par.rxCap
def State.winOpen (s : State) : Bool := seqWinopen s.cur.nts s.cur.lastAcked

/-! ### The transmit engine -/

/-- The framer drives the stream: R171, exactly when `rc_state = RC_IDLE`. -/
def State.framing (s : State) (f : FrState) : Bool := s.cur.rcState == .idle && s.cur.frState == f

/-- R172, every term of `can_start` but `in.up_valid = 1`. -/
def State.canOpen (s : State) : Bool :=
  s.framing .idle && !s.cur.replayReq && s.winOpen && decide (s.rbCount < s.par.nSlots)

/-- R172: `can_start`. -/
def State.canStart (s : State) : Bool := s.canOpen && upWordValid s.line.uw

/-- R178: the next byte is payload byte number MAX_PAYLOAD, `|tx_stage| - 2 = MAX_PAYLOAD - 1` before it. -/
def State.atMax (s : State) : Bool := s.cur.txStage.length + 1 == s.par.maxPayload + 2

/-- R190: `pass_live`. -/
def State.passLive (s : State) : Bool := s.cur.rcState == .replaying && s.cur.rpPass

/-- R190: `pass_start`. -/
def State.passStart (s : State) : Bool :=
  s.cur.replayReq && decide (0 < s.rbCount) &&
    (s.framing .idle || (s.cur.rcState == .replaying && !s.cur.rpBusy && !s.cur.rpPass))

/-- R190: `req_drop`. -/
def State.reqDrop (s : State) : Bool := s.cur.replayReq && s.framing .idle && s.rbCount == 0

/-- R190: `head`, the oldest outstanding id, or `nts` when there is none. -/
def State.head (s : State) : Seq := s.cur.unacked.headD s.cur.nts

/-- R194 to R198: the controller is in Replaying and no frame is being streamed. -/
def State.replayWaiting (s : State) : Bool := s.cur.rcState == .replaying && !s.cur.rpBusy

/-- R195, R196, R198: a live pass is between two frames and something is stored. -/
def State.passBetween (s : State) : Bool := s.replayWaiting && s.cur.rpPass && decide (0 < s.rbCount)

/-- R151, R199: the byte due is the last of the frame being re-sent. -/
def State.lastBeat (s : State) : Bool := s.cur.rpPos + 1 == s.cur.rpBytes.length

/-- R205: an effective ACK for `x`. -/
def State.ackEff (s : State) (x : Seq) : Bool := s.cur.unacked.contains x

/-- R210: the word on the control port is an effective ACK (`ack_eff`). -/
def State.ackEffective (s : State) : Bool :=
  ctlWordValid s.line.cw && ctlWordPositive s.line.cw && s.ackEff (ctlWordId s.line.cw)

/-- R210, line 1: `unacked'` is empty, or an effective ACK, or a pass live or starting.  `unacked'` is `nxt.unacked`, the
value after the removal and the append of this tick (R212). -/
def State.replayTimerHeld (s : State) : Bool :=
  s.nxt.unacked.isEmpty || s.ackEffective || s.passLive || s.passStart

/-- R210, line 3: the replay timer expires (TX.TIMEOUT). -/
def State.replayExpires (s : State) : Bool :=
  !s.replayTimerHeld && !s.cur.unacked.isEmpty && decide (s.par.replayLimit ≤ s.cur.replayTimer + 1)

/-- R210: the replay timer at the start of the next tick. -/
def State.replayTimerNext (s : State) : Nat :=
  if s.replayTimerHeld || s.cur.unacked.isEmpty || s.replayExpires then 0 else s.cur.replayTimer + 1

/-! ### The receive engine -/

/-- R220: `rx_ready`. -/
def State.rxReady (s : State) : Bool := s.cur.rxState == .idle || s.cur.rxState == .receiving

/-- R228: the class of the frame in `rx_stage`. -/
def State.rxClass (s : State) : VClass :=
  let f := s.cur.rxStage
  if decide (f.length < 6) || s.cur.rxTrunc || s.cur.rxOversize then .corrupt
  else if crcOf s.par.crc (rxCovered f) != rxTrailer f then .corrupt
  else if rxId f == s.cur.nrs then .accept
  else if seqOldeq s.cur.nrs (rxId f) then .duplicate
  else .gap

/-- R230 to R233: the frame is validated in this tick and has class `c`. -/
def State.validates (s : State) (c : VClass) : Bool := s.cur.rxState == .validating && s.rxClass == c

/-- R240, line 3: the ack timer reaches its limit (RX.KEEPALIVE). -/
def State.ackExpires (s : State) : Bool :=
  !s.schedd && s.cur.rxState != .waitspace && decide (s.par.ackLimit ≤ s.cur.ackTimer + 1)

/-- R240: the ack timer at the start of the next tick. -/
def State.ackTimerNext (s : State) : Nat :=
  if s.schedd || s.cur.rxState == .waitspace || s.ackExpires then 0 else s.cur.ackTimer + 1

end Sys2Proof.Machine
end

