-- ==== Sys2Proof/Machine/Ops.lean ====
section
/-! DEFINITION. The shared operations: writing a register, driving a port, raising a request, servicing it in the slots,
scheduling a control message, and the three things that stand for exceptions (00_scope.md R5): a frame that is not accepted,
a nullification, and the entry to Replaying. -/

namespace Sys2Proof.Machine

/-! ### Updates -/

/-- R11: `name <- v`, the value at the start of the next tick. -/
def State.write (s : State) (f : Regs → Regs) : State := { s with nxt := f s.nxt }

/-- R11: `out.name`. -/
def State.drive (s : State) (f : PortOut → PortOut) : State := { s with out := f s.out }

/-- R101: raise a request on a port of the retry buffer. -/
def State.request (s : State) (f : RbqPorts → RbqPorts) : State := { s with req := f s.req }

/-- The result of an operation that only computes. -/
def State.answer (s : State) (f : Answers → Answers) : State := { s with ans := f s.ans }

/-- R240: note that a `sched` from R230 to R236 happened. -/
def State.markSched (s : State) : State := { s with schedd := true }

/-- R146: note a serviced delete. -/
def State.recordDel (s : State) (i : Seq) (c : DelCause) : State := { s with dels := s.dels ++ [(i, c)] }

/-! ### When an operation happens -/

/-- An operation under its condition.  R262: no rule but the reset applies while the link is down or `rst` is 1; R103: an
operation happens in every tick in which its condition is true, and in no other. -/
def happens (cond : State → Bool) (eff : State → State) (s : State) : Host.Outcome State Fault Refusal :=
  .next (if s.line.live && cond s then eff s else s)

/-- An operation that is available in every tick (R105, formats `function`). -/
def always (eff : State → State) (s : State) : Host.Outcome State Fault Refusal := .next (eff s)

/-- The part of an operation that waits for the link to take the beat: `if in.tx_ready = 1 then …` (R183). -/
def State.whenTaken (s : State) (eff : State → State) : State := if s.line.txReady then eff s else s

/-! ### The transmit stream -/

/-- R171: offer a beat on the transmit stream. -/
def State.offer (s : State) (data : Byte) (sof eof bad : Bool) : State :=
  s.drive fun o => { o with txValid := true, txData := data, txSof := sof, txEof := eof, txBad := bad }

/-- R171: in `F_PAYLOAD`, `up_ready = in.tx_ready`. -/
def State.readyUp (s : State) : State := s.drive fun o => { o with upReady := s.line.txReady }

/-- R177: the state after `F_CRCk`. -/
def nextCrcState : FrState → FrState
  | .crc0 => .crc1
  | .crc1 => .crc2
  | .crc2 => .crc3
  | .idle => .idle
  | .hdr1 => .hdr1
  | .payload => .payload
  | .crc3 => .crc3

/-- R177: `k = fr_state - F_CRC0`. -/
def crcIndex : FrState → Nat
  | .crc1 => 1
  | .crc2 => 2
  | .crc3 => 3
  | .idle => 0
  | .hdr1 => 0
  | .payload => 0
  | .crc0 => 0

/-- R177, R179, R180: the trailer byte that is due, byte `k` of `be32(tx_crc)`. -/
def State.trailerByte (s : State) : Byte := (be32 s.cur.txCrc).getD (crcIndex s.cur.frState) 0

/-- R176, R178: a nullification, `raise Nullify`: the frame staged so far gets the complemented trailer. -/
def State.nullify (s : State) (staged : List Byte) : State :=
  s.write fun r => { r with txNull := true, txCrc := ~~~ crcOf s.par.crc staged, frState := .crc0 }

/-! ### The replay pass -/

/-- R192, R197: start a pass at the oldest outstanding id. -/
def State.startPass (s : State) : State :=
  s.write fun r =>
    { r with rpPass := true, rpId := s.head, rpBusy := false, replayCount := s.cur.replayCount + 1, replayReq := false,
             replayTimer := 0 }

/-- R192, R290: the entry to Replaying, the transmit side's recovery.  Nothing is saved. -/
def State.enterReplaying (s : State) : State := s.startPass.write fun r => { r with rcState := .replaying }

/-- R194, R294: the return from Replaying.  Nothing is restored. -/
def State.exitReplaying (s : State) : State := s.write fun r => { r with rcState := .idle, rpPass := false }

/-- R198, R199: the cursor moves to the next id. -/
def State.advanceCursor (s : State) : State := s.write fun r => { r with rpId := seqInc s.cur.rpId }

/-! ### The slots -/

/-- R141, R148: the store of a frame under an id, on start-of-tick `find`, count and free slots.  DESIGN CHOICE (log entry 17): with
no free slot although the count is not N, which takes a buffer of other than N slots (R37), nothing is stored. -/
def State.storeFrame (s : State) (id : Seq) (bytes : List Byte) : State :=
  if (find s.cur.slots id).isSome || s.rbFull then s
  else
    match firstFree s.cur.slots with
    | some k => s.write fun r => { r with slots := r.slots.set k { occ := true, id := id, bytes := bytes } }
    | none => s

/-- R143: clear the slot that holds `i`, if any; `id` and `bytes` stay in place (R143, R50; log entry 4). -/
def State.clearSlot (s : State) (i : Seq) : State :=
  match find s.cur.slots i with
  | some k => s.write fun r => { r with slots := r.slots.modify k fun sl => { sl with occ := false } }
  | none => s

/-- R146: service one delete request; a request for an id that an earlier entry of the list names is dropped. -/
def State.serviceDelete (s : State) (c : DelCause) (i : Seq) : State :=
  if s.dels.any fun d => d.1 == i then s else (s.clearSlot i).recordDel i c

/-- R146: service requests front to back. -/
def State.serviceDeletes (s : State) (c : DelCause) (ids : List Seq) : State :=
  ids.foldl (fun t i => t.serviceDelete c i) s

/-- R150: start streaming the frame of an id: a copy of the whole frame. -/
def State.startSend (s : State) (id : Seq) : State :=
  match find s.cur.slots id with
  | some k =>
    s.write fun r => { r with rpBytes := (s.cur.slots.getD k Slot.free).bytes, rpPos := 0, rpBusy := true }
  | none => s

/-- R151: the byte of the copy that is due. -/
def State.replayByte (s : State) : Byte := s.cur.rpBytes.getD s.cur.rpPos (Config.freeByte s.cur.rpPos)

/-- R151: one beat of the copy. -/
def State.sendBeat (s : State) : State :=
  (s.offer s.replayByte (s.cur.rpPos == 0) s.lastBeat false).whenTaken fun t =>
    if s.lastBeat then t.write fun r => { r with rpBusy := false, rpPos := 0, rpBytes := [] }
    else t.write fun r => { r with rpPos := s.cur.rpPos + 1 }

/-! ### Control messages and the receive side -/

/-- R238: `sched(kind, i)` writes the pending-control register. -/
def State.sched (s : State) (positive : Bool) (i : Seq) : State :=
  s.write fun r => { r with ctlPending := true, ctlPositive := positive, ctlId := i }

/-- R238, R240: a `sched` from rules R230 to R236, which resets the ack timer. -/
def State.schedNow (s : State) (positive : Bool) (i : Seq) : State :=
  ((s.sched positive i).markSched).write fun r => { r with ackTimer := 0 }

/-- R226: validation ends: the staging is released. -/
def State.releaseStaging (s : State) (next : RxState) : State :=
  s.write fun r => { r with rxStage := [], rxTrunc := false, rxOversize := false, rxState := next }

/-- R232, R233: `raise Gap`, `raise Corrupt`: a NAK for the last id accepted in order, at most one. -/
def State.raiseNak (s : State) : State :=
  (if s.cur.nakScheduled then s
   else (s.schedNow false (seqDec s.cur.nrs)).write fun r => { r with nakScheduled := true }).releaseStaging .idle

/-- R223: append a byte to the frame being received, or note that it is too long. -/
def State.capture (s : State) (data : Byte) : State :=
  if s.cur.rxStage.length < maxFrame s.par then s.write fun r => { r with rxStage := s.cur.rxStage ++ [data] }
  else s.write fun r => { r with rxOversize := true }

/-- R224, R225: the last byte of a frame, with the marker it ended with. -/
def State.captureLast (s : State) (data : Byte) (bad : Bool) : State :=
  (s.capture data).write fun r => { r with rxTrunc := bad, rxState := .validating }

/-! ### Reset -/

/-- R262, R263: every register takes its reset value and every output is 0. -/
def State.resetNow (s : State) : State :=
  (s.write fun _ => Regs.reset s.par).drive fun _ => PortOut.zero

end Sys2Proof.Machine
end

