-- ==== Sys2Proof/Machine/RetryBuffer.lean ====
section
/-! DEFINITION. The meanings of the retry buffer's operations (spec/41_retry_buffer.md R140 to R152).  Every failure is a
silent no-op; all of them look at the start-of-tick slots. -/

namespace Sys2Proof.Machine

/-- R141: a store of an id already held, or into a full buffer, does nothing. -/
def execRbStore (id : Seq) (bytes : List Byte) (s : State) : Host.Outcome State Fault Refusal :=
  happens (fun _ => true) (fun t => t.storeFrame id bytes) s

/-- The delete requests of a port's word and who asks (R101, R146). -/
def delRequests : DelReq → DelCause × List Seq
  | .portA lo hi => (.acknowledgement, seqRange lo hi)
  | .portB id => (.nullification, [id])

/-- R143, R146: port A names every id from `lo` to `hi`, port B one id. -/
def execRbDelete (req : DelReq) (s : State) : Host.Outcome State Fault Refusal :=
  happens (fun _ => true) (fun t => t.serviceDeletes (delRequests req).1 (delRequests req).2) s

/-- R144: `q_hit`. -/
def execRbContains (id : Seq) (s : State) : Host.Outcome State Fault Refusal :=
  happens (fun _ => true) (fun t => t.answer fun r => { r with qHit := (find t.cur.slots id).isSome }) s

/-- R145, R36: `rb_count`, `rb_full`, `rb_empty`. -/
def execRbCount (s : State) : Host.Outcome State Fault Refusal :=
  always (fun t => t.answer fun r => { r with rbCount := t.rbCount, rbFull := t.rbFull, rbEmpty := t.rbEmpty }) s

/-- R150, the start, and R151, one beat while `rp_busy = 1`. -/
def execRbSend (req : SendReq) (s : State) : Host.Outcome State Fault Refusal :=
  match req with
  | .start id => happens (fun _ => true) (fun t => t.startSend id) s
  | .beat => happens (fun t => t.cur.rpBusy) State.sendBeat s

/-- R200, R192: what a replay pass does in one tick, the first of these whose condition holds: a beat and, on the last one, the
cursor's move; the exit; the pass end, a send or a skip; another pass; or, from `RC_IDLE`, the entry. -/
def State.passTick (s : State) : State :=
  match s.cur.rcState with
  | .replaying =>
    if s.cur.rpBusy then
      (if s.lastBeat && s.line.txReady then s.sendBeat.advanceCursor else s.sendBeat)
    else if s.rbEmpty then s.exitReplaying
    else if s.cur.rpPass then
      if s.cur.rpId == s.cur.nts then s.write fun r => { r with rpPass := false }
      else if (find s.cur.slots s.cur.rpId).isSome then s.startSend s.cur.rpId
      else s.advanceCursor
    else if s.passStart then s.startPass
    else s
  | .idle => if s.passStart then s.enterReplaying else s

/-- R152: `RB.SENDALL` is a macro, carried out by the replay pass of R192 to R199, which re-sends every stored frame, oldest
first, over many ticks; in one tick it does what the pass does in that tick (DEDUCED, log entry 10). -/
def execRbSendall (s : State) : Host.Outcome State Fault Refusal :=
  happens (fun _ => true) State.passTick s

end Sys2Proof.Machine
end

