-- ==== Sys2Proof/Machine/RxEngine.lean ====
section
/-! DEFINITION. The meanings of the receive engine's operations (spec/43_rx_engine.md R220 to R245). -/

namespace Sys2Proof.Machine

/-! ### Capture -/

/-- R221: the first byte of a frame; with `eof` on the same beat the frame goes straight to validation. -/
def execRxStart (eof bad : Bool) (data : Byte) (s : State) : Host.Outcome State Fault Refusal :=
  happens (fun t => t.cur.rxState == .idle)
    (fun t =>
      if eof then
        t.write fun r => { r with rxStage := [data], rxOversize := false, rxTrunc := bad, rxState := .validating }
      else t.write fun r => { r with rxStage := [data], rxOversize := false, rxState := .receiving }) s

/-- R222: a byte outside any frame is taken and dropped. -/
def execRxStray (s : State) : Host.Outcome State Fault Refusal :=
  happens (fun t => t.cur.rxState == .idle) (fun t => t) s

/-- R223: a further byte of the frame. -/
def execRxData (data : Byte) (s : State) : Host.Outcome State Fault Refusal :=
  happens (fun t => t.cur.rxState == .receiving) (fun t => t.capture data) s

/-- R224: the last byte, with the END marker. -/
def execRxEnd (data : Byte) (s : State) : Host.Outcome State Fault Refusal :=
  happens (fun t => t.cur.rxState == .receiving) (fun t => t.captureLast data false) s

/-- R225: the last byte, with the truncation marker. -/
def execRxTrunc (data : Byte) (s : State) : Host.Outcome State Fault Refusal :=
  happens (fun t => t.cur.rxState == .receiving) (fun t => t.captureLast data true) s

/-! ### Validation -/

/-- R230: the packet joins the queue (after this tick's pop, R244); the ACK is scheduled, or deferred when the queue is then
full. -/
def State.acceptFrame (s : State) : State :=
  let t := s.write fun r =>
    { r with nrs := seqInc s.cur.nrs, nakScheduled := false,
             rxq := r.rxq ++ [{ id := rxId s.cur.rxStage, payload := rxPayload s.cur.rxStage }] }
  if t.nxt.rxq.length == s.par.rxCap then t.releaseStaging .waitspace
  else (t.schedNow true (rxId s.cur.rxStage)).releaseStaging .idle

/-- R230: class Accept. -/
def execRxAccept (s : State) : Host.Outcome State Fault Refusal :=
  happens (fun t => t.validates .accept) State.acceptFrame s

/-- R231: class Duplicate: the last accepted id is acknowledged again. -/
def execRxDup (s : State) : Host.Outcome State Fault Refusal :=
  happens (fun t => t.validates .duplicate)
    (fun t => (t.schedNow true (seqDec t.cur.nrs)).releaseStaging .idle) s

/-- R232: class Gap. -/
def execRxGap (s : State) : Host.Outcome State Fault Refusal :=
  happens (fun t => t.validates .gap) State.raiseNak s

/-- R233: class Corrupt, exactly as R232. -/
def execRxCorrupt (s : State) : Host.Outcome State Fault Refusal :=
  happens (fun t => t.validates .corrupt) State.raiseNak s

/-- R236: the deferred ACK, once the queue has room. -/
def execRxSpace (s : State) : Host.Outcome State Fault Refusal :=
  happens (fun t => t.cur.rxState == .waitspace && decide (t.rxqCount < t.par.rxCap))
    (fun t => (t.schedNow true (seqDec t.cur.nrs)).write fun r => { r with rxState := .idle }) s

/-! ### Control messages out, keep-alive, receive queue -/

/-- R239: the pending message, which is `ACK(id)` or `NAK(id)`, is offered and, with `ctl_tx_ready`, handed over. -/
def execCtlSend (positive : Bool) (id : Seq) (s : State) : Host.Outcome State Fault Refusal :=
  happens (fun t => t.cur.ctlPending && t.cur.ctlPositive == positive && t.cur.ctlId == id)
    (fun t =>
      let u := t.drive fun o => { o with ctlTxValid := true, ctlTxPositive := positive, ctlTxId := id }
      if t.line.ctlTxReady then u.write fun r => { r with ctlPending := false } else u) s

/-- R241: the ack timer has reached its limit: an ACK for the last accepted id, unless a message is pending. -/
def execRxKeepalive (s : State) : Host.Outcome State Fault Refusal :=
  happens State.ackExpires
    (fun t =>
      let u := t.write fun r => { r with ackTimer := 0 }
      if t.cur.ctlPending then u else u.sched true (seqDec t.cur.nrs)) s

/-- R243: the head of the receive queue is removed. -/
def execRxqPop (s : State) : Host.Outcome State Fault Refusal :=
  happens (fun t => decide (0 < t.rxqCount)) (fun t => t.write fun r => { r with rxq := t.cur.rxq.tail }) s

end Sys2Proof.Machine
end

