-- ==== Sys2Proof/Machine/SeqArith.lean ====
section
/-! DEFINITION. The meanings of the sequence-number operations (spec/40_seq_arith.md R120 to R125).  They write no register
and no flag, raise nothing, and are available in every tick; the result is what they answer (log entry 11). -/

namespace Sys2Proof.Machine

/-- R120. -/
def execSeqDist (a b : Seq) (s : State) : Host.Outcome State Fault Refusal :=
  always (fun t => t.answer fun r => { r with seqResult := seqDist a b }) s

/-- R121. -/
def execSeqInc (a : Seq) (s : State) : Host.Outcome State Fault Refusal :=
  always (fun t => t.answer fun r => { r with seqResult := seqInc a }) s

/-- R122. -/
def execSeqDec (a : Seq) (s : State) : Host.Outcome State Fault Refusal :=
  always (fun t => t.answer fun r => { r with seqResult := seqDec a }) s

/-- R123. -/
def execSeqOldeq (ref id : Seq) (s : State) : Host.Outcome State Fault Refusal :=
  always (fun t => t.answer fun r => { r with testResult := seqOldeq ref id }) s

/-- R124. -/
def execSeqPrecedes (x y : Seq) (s : State) : Host.Outcome State Fault Refusal :=
  always (fun t => t.answer fun r => { r with testResult := seqPrecedes x y }) s

/-- R125. -/
def execSeqWinopen (nts lastAcked : Seq) (s : State) : Host.Outcome State Fault Refusal :=
  always (fun t => t.answer fun r => { r with testResult := seqWinopen nts lastAcked }) s

end Sys2Proof.Machine
end

