-- ==== Sys2Proof/Machine/SyncLink.lean ====
section
/-! DEFINITION. The meanings of the synchronizer's operations (spec/44_sync_link.md R262 to R267). -/

namespace Sys2Proof.Machine

/-- R262, R263: the lock-step reset, on `rst = 1` or `link_up = 0`. -/
def execLinkDown (rst linkUp : Bool) (s : State) : Host.Outcome State Fault Refusal :=
  always (fun t => if rst || !linkUp then t.resetNow else t) s

/-- R267: the status outputs show start-of-tick values. -/
def execStatus (s : State) : Host.Outcome State Fault Refusal :=
  happens (fun _ => true)
    (fun t => t.drive fun o =>
      { o with stTxSeq := t.cur.nts, stRxSeq := t.cur.nrs, stRbCount := t.rbCount, stRxqCount := t.rxqCount,
               stReplayCount := t.cur.replayCount, stRbFull := t.rbFull, stRbEmpty := t.rbEmpty }) s

end Sys2Proof.Machine
end

