-- ==== Sys2Proof/Machine/TxAck.lean ====
section
/-! DEFINITION. The meanings of the acknowledgement logic's operations and of the replay timer's expiry
(spec/42_tx_engine.md R204 to R212). -/

namespace Sys2Proof.Machine

/-- R205: an effective ACK releases every id from the head of `unacked` to `id`: their slots are asked to be deleted on port
A, they leave the FIFO, `last_acked` follows, the timer starts again.  DESIGN CHOICE (log entry 17): where `id` stands in `unacked`
more than once the first occurrence is meant; R205 says `X = unacked[k]` for some `k`, and no run reaches such a state (R48 (a),
U17). -/
def execTxAck (id : Seq) (s : State) : Host.Outcome State Fault Refusal :=
  happens (fun t => t.ackEff id)
    (fun t => (t.request fun q => { q with delA := rangeWord true (t.cur.unacked.headD id) id }).write fun r =>
      { r with unacked := t.cur.unacked.drop (t.cur.unacked.idxOf id + 1), lastAcked := id, replayTimer := 0 }) s

/-- R206: an ACK for an id that is not outstanding does nothing. -/
def execTxAckIgnored (_id : Seq) (s : State) : Host.Outcome State Fault Refusal :=
  happens (fun _ => true) (fun t => t) s

/-- R207: a NAK asks for a replay; its id is not used. -/
def execTxNak (_id : Seq) (s : State) : Host.Outcome State Fault Refusal :=
  happens (fun t => !t.passLive && !t.passStart) (fun t => t.write fun r => { r with replayReq := true }) s

/-- R208: a NAK while a pass is live or starts does nothing. -/
def execTxNakIgnored (_id : Seq) (s : State) : Host.Outcome State Fault Refusal :=
  happens (fun _ => true) (fun t => t) s

/-- R210: the replay timer expires: a replay is asked for and the timer starts again. -/
def execTxTimeout (s : State) : Host.Outcome State Fault Refusal :=
  happens State.replayExpires (fun t => t.write fun r => { r with replayTimer := 0, replayReq := true }) s

end Sys2Proof.Machine
end

