-- ==== Sys2Proof/Machine/TxFramer.lean ====
section
/-! DEFINITION. The meanings of the framer's operations (spec/42_tx_engine.md R171 to R184).  Each offers its beat while its
condition holds and moves on when the link takes it (`tx_ready`), but for TX.NULLIFY, which does not wait (R183). -/

namespace Sys2Proof.Machine

/-- R172: the first header byte is offered while `can_start` holds; nothing is taken from the upper layer. -/
def execTxStart (s : State) : Host.Outcome State Fault Refusal :=
  happens State.canStart
    (fun t => (t.offer (hdrByte0 t.cur.nts) true false false).whenTaken fun u =>
      u.write fun r => { r with txStage := [hdrByte0 t.cur.nts], txNull := false, frState := .hdr1 }) s

/-- R174: the second header byte. -/
def execTxHdr1 (s : State) : Host.Outcome State Fault Refusal :=
  happens (fun t => t.framing .hdr1)
    (fun t => (t.offer (hdrByte1 t.cur.nts) false false false).whenTaken fun u =>
      u.write fun r => { r with txStage := t.cur.txStage ++ [hdrByte1 t.cur.nts], frState := .payload }) s

/-- R175: one payload byte passes through; with `up_last` the good trailer is computed (R182).  The byte number MAX_PAYLOAD
without `up_last` is TX.OVERLEN's. -/
def execTxData (last : Bool) (data : Byte) (s : State) : Host.Outcome State Fault Refusal :=
  happens (fun t => t.framing .payload && !(!last && t.atMax))
    (fun t => ((t.offer data false false false).readyUp).whenTaken fun u =>
      if last then
        u.write fun r =>
          { r with txStage := t.cur.txStage ++ [data], txCrc := crcOf t.par.crc (t.cur.txStage ++ [data]), frState := .crc0 }
      else u.write fun r => { r with txStage := t.cur.txStage ++ [data] }) s

/-- R176: no byte offered in `F_PAYLOAD`, whatever `tx_ready` is: the frame is nullified. -/
def execTxNullify (s : State) : Host.Outcome State Fault Refusal :=
  happens (fun t => t.framing .payload) (fun t => t.readyUp.nullify t.cur.txStage) s

/-- R177: trailer bytes 0, 1, 2. -/
def execTxCrc (s : State) : Host.Outcome State Fault Refusal :=
  happens (fun t => t.framing .crc0 || t.framing .crc1 || t.framing .crc2)
    (fun t => (t.offer t.trailerByte false false false).whenTaken fun u =>
      u.write fun r => { r with frState := nextCrcState t.cur.frState }) s

/-- R178: payload byte number MAX_PAYLOAD without `up_last`: sent and staged as in R175, and the frame is nullified. -/
def execTxOverlen (data : Byte) (s : State) : Host.Outcome State Fault Refusal :=
  happens (fun t => t.framing .payload && t.atMax)
    (fun t => ((t.offer data false false false).readyUp).whenTaken fun u =>
      (u.write fun r => { r with txStage := t.cur.txStage ++ [data] }).nullify (t.cur.txStage ++ [data])) s

/-- R179: the last beat of a nullified frame; the id is asked to be deleted on port B and is used again. -/
def execTxAbort (s : State) : Host.Outcome State Fault Refusal :=
  happens (fun t => t.framing .crc3 && t.cur.txNull)
    (fun t => (t.offer t.trailerByte false true true).whenTaken fun u =>
      (u.request fun q => { q with delB := reqWord true t.cur.nts }).write fun r =>
        { r with frState := .idle, txStage := [], txNull := false }) s

/-- R180: the last beat of a good frame: store, push the id (after this tick's removals, R212), count up. -/
def execTxComplete (s : State) : Host.Outcome State Fault Refusal :=
  happens (fun t => t.framing .crc3 && !t.cur.txNull)
    (fun t => (t.offer t.trailerByte false true false).whenTaken fun u =>
      (u.request fun q =>
        { q with store := reqWord true t.cur.nts, storeBytes := t.cur.txStage ++ be32 t.cur.txCrc }).write fun r =>
        { r with unacked := r.unacked ++ [t.cur.nts], nts := seqInc t.cur.nts, frState := .idle, txStage := [] }) s

end Sys2Proof.Machine
end

