-- ==== Sys2Proof/Machine/TxReplay.lean ====
section
/-! DEFINITION. The meanings of the replay controller's operations (spec/42_tx_engine.md R190 to R201). -/

namespace Sys2Proof.Machine

/-- R192: enter Replaying and start the first pass. -/
def execTxReplayEnter (s : State) : Host.Outcome State Fault Refusal :=
  happens (fun t => t.cur.rcState == .idle && t.passStart) State.enterReplaying s

/-- R193: a replay was asked for and there is nothing to replay. -/
def execTxReplayDrop (s : State) : Host.Outcome State Fault Refusal :=
  happens State.reqDrop (fun t => t.write fun r => { r with replayReq := false }) s

/-- R194: return to Idle once the buffer is empty. -/
def execTxReplayExit (s : State) : Host.Outcome State Fault Refusal :=
  happens (fun t => t.replayWaiting && t.rbEmpty) State.exitReplaying s

/-- R195: the pass has considered every id up to `nts`. -/
def execTxReplayPassend (s : State) : Host.Outcome State Fault Refusal :=
  happens (fun t => t.passBetween && t.cur.rpId == t.cur.nts) (fun t => t.write fun r => { r with rpPass := false }) s

/-- R196: ask the retry buffer to send the frame the cursor points to. -/
def execTxReplaySend (s : State) : Host.Outcome State Fault Refusal :=
  happens (fun t => t.passBetween && t.cur.rpId != t.cur.nts && (find t.cur.slots t.cur.rpId).isSome)
    (fun t => t.request fun q => { q with send := reqWord true t.cur.rpId }) s

/-- R197: another pass without leaving Replaying. -/
def execTxReplayAgain (s : State) : Host.Outcome State Fault Refusal :=
  happens (fun t => t.cur.rcState == .replaying && t.passStart) State.startPass s

/-- R198: the cursor's id is no longer stored: step over it. -/
def execTxReplaySkip (s : State) : Host.Outcome State Fault Refusal :=
  happens (fun t => t.passBetween && t.cur.rpId != t.cur.nts && (find t.cur.slots t.cur.rpId).isNone)
    State.advanceCursor s

/-- R199: the last beat of a re-sent frame is taken: move the cursor. -/
def execTxReplayNext (s : State) : Host.Outcome State Fault Refusal :=
  happens (fun t => t.cur.rpBusy && t.lastBeat && t.line.txReady) State.advanceCursor s

end Sys2Proof.Machine
end

