-- ==== Sys2Proof/Machine/Dispatch.lean ====
section
/-! DEFINITION. The meaning of every operation (spec/opcode_table.json), one arm per constructor. -/

namespace Sys2Proof.Machine

def exec (i : Instr) (s : State) : Host.Outcome State Fault Refusal :=
  match i with
  | .seqDist a b => Sys2Proof.Machine.execSeqDist a b s
  | .seqInc a => Sys2Proof.Machine.execSeqInc a s
  | .seqDec a => Sys2Proof.Machine.execSeqDec a s
  | .seqOldeq ref id => Sys2Proof.Machine.execSeqOldeq ref id s
  | .seqPrecedes x y => Sys2Proof.Machine.execSeqPrecedes x y s
  | .seqWinopen nts lastAcked => Sys2Proof.Machine.execSeqWinopen nts lastAcked s
  | .rbStore id bytes => Sys2Proof.Machine.execRbStore id bytes s
  | .rbDelete req => Sys2Proof.Machine.execRbDelete req s
  | .rbContains id => Sys2Proof.Machine.execRbContains id s
  | .rbCount => Sys2Proof.Machine.execRbCount s
  | .rbSend req => Sys2Proof.Machine.execRbSend req s
  | .rbSendall => Sys2Proof.Machine.execRbSendall s
  | .txStart => Sys2Proof.Machine.execTxStart s
  | .txHdr1 => Sys2Proof.Machine.execTxHdr1 s
  | .txData last data => Sys2Proof.Machine.execTxData last data s
  | .txNullify => Sys2Proof.Machine.execTxNullify s
  | .txCrc => Sys2Proof.Machine.execTxCrc s
  | .txOverlen data => Sys2Proof.Machine.execTxOverlen data s
  | .txAbort => Sys2Proof.Machine.execTxAbort s
  | .txComplete => Sys2Proof.Machine.execTxComplete s
  | .txReplayEnter => Sys2Proof.Machine.execTxReplayEnter s
  | .txReplayDrop => Sys2Proof.Machine.execTxReplayDrop s
  | .txReplayExit => Sys2Proof.Machine.execTxReplayExit s
  | .txReplayPassend => Sys2Proof.Machine.execTxReplayPassend s
  | .txReplaySend => Sys2Proof.Machine.execTxReplaySend s
  | .txReplayAgain => Sys2Proof.Machine.execTxReplayAgain s
  | .txReplaySkip => Sys2Proof.Machine.execTxReplaySkip s
  | .txReplayNext => Sys2Proof.Machine.execTxReplayNext s
  | .txAck id => Sys2Proof.Machine.execTxAck id s
  | .txAckIgnored id => Sys2Proof.Machine.execTxAckIgnored id s
  | .txNak id => Sys2Proof.Machine.execTxNak id s
  | .txNakIgnored id => Sys2Proof.Machine.execTxNakIgnored id s
  | .txTimeout => Sys2Proof.Machine.execTxTimeout s
  | .rxStart eof bad data => Sys2Proof.Machine.execRxStart eof bad data s
  | .rxStray => Sys2Proof.Machine.execRxStray s
  | .rxData data => Sys2Proof.Machine.execRxData data s
  | .rxEnd data => Sys2Proof.Machine.execRxEnd data s
  | .rxTrunc data => Sys2Proof.Machine.execRxTrunc data s
  | .rxAccept => Sys2Proof.Machine.execRxAccept s
  | .rxDup => Sys2Proof.Machine.execRxDup s
  | .rxGap => Sys2Proof.Machine.execRxGap s
  | .rxCorrupt => Sys2Proof.Machine.execRxCorrupt s
  | .rxSpace => Sys2Proof.Machine.execRxSpace s
  | .ctlSend positive id => Sys2Proof.Machine.execCtlSend positive id s
  | .rxKeepalive => Sys2Proof.Machine.execRxKeepalive s
  | .rxqPop => Sys2Proof.Machine.execRxqPop s
  | .linkDown rst linkUp => Sys2Proof.Machine.execLinkDown rst linkUp s
  | .status => Sys2Proof.Machine.execStatus s

end Sys2Proof.Machine
end

