-- ==== Sys2Proof/Machine/Tick.lean ====
section
/-! DEFINITION. One tick (spec/20_memory.md R60, R61): which operations happen in it, in the order in which their writes to a
shared register combine, and how it begins and ends.  Every condition reads start-of-tick registers and the input line, so the
order matters only where R61 lists two writers: the ACK's removal before the completion's append (R212), the dropped request
before a new one (R211), the pop before the append (R244), the hand-over before a new schedule (R239), the deletes and the store
after the operations that raise them (R140, R148), the timers last (R210, R240).  Log entry 16. -/

namespace Sys2Proof.Machine

/-! ### Begin and end -/

/-- The outputs that no operation of R105 drives: `dl_up` (R265), `rx_ready` (R220), the head of the queue (R243). -/
def State.baseOut (s : State) : PortOut :=
  if s.line.live then
    { PortOut.zero with
        dlUp := true, rxReady := s.rxReady, rxqValid := decide (0 < s.rxqCount),
        rxqId := (s.cur.rxq.head?.map RxEntry.id).getD 0, rxqBytes := (s.cur.rxq.head?.map RxEntry.payload).getD [] }
  else PortOut.zero

/-- R60: a register no rule writes keeps its value; R140: no request is held over.  The query port is evaluated in every tick
(R101, R144); the replay cursor is the id asked for (DESIGN CHOICE, log entry 15). -/
def State.beginTick (s : State) : State :=
  { s with nxt := s.cur, req := { RbqPorts.idle with query := s.cur.rpId }, dels := [], schedd := false,
           ans := Answers.none, out := s.baseOut }

/-- R210, R240: the two timers, after everything else of the tick. -/
def State.clockTimers (s : State) : State :=
  if s.line.live then s.write fun r => { r with replayTimer := s.replayTimerNext, ackTimer := s.ackTimerNext } else s

/-- R60: the writes of the tick are the registers of the next one; the input line is used up. -/
def State.endTick (s : State) : State :=
  { s with cur := s.nxt, req := RbqPorts.idle, dels := [], schedd := false, inputs := s.inputs.tail }

/-! ### The operations of a tick -/

/-- What the decoder is told of the start-of-tick registers. -/
def State.decodeCtx (s : State) : DecodeCtx :=
  { up := if s.canOpen then .opening else if s.framing .payload then .payload s.atMax else .shut,
    rx := s.cur.rxState, unacked := s.cur.unacked, passBusy := s.passLive || s.passStart }

/-- The operation a word selects in this tick, if any. -/
def State.decoded (s : State) (pw : PortWord) : List Instr := (decode s.decodeCtx pw).toList

/-- R174, R177, R179, R180: the framer's operations that no word selects. -/
def State.framerOps (s : State) : List Instr :=
  match s.cur.rcState with
  | .replaying => []
  | .idle =>
    match s.cur.frState with
    | .idle => []
    | .hdr1 => [.txHdr1]
    | .payload => []
    | .crc0 => [.txCrc]
    | .crc1 => [.txCrc]
    | .crc2 => [.txCrc]
    | .crc3 => if s.cur.txNull then [.txAbort] else [.txComplete]

/-- R200 and, from `RC_IDLE`, R192: what the replay controller does. -/
def State.replayOps (s : State) : List Instr :=
  match s.cur.rcState with
  | .replaying =>
    if s.cur.rpBusy then
      (if s.lastBeat && s.line.txReady then [.rbSend .beat, .txReplayNext] else [.rbSend .beat])
    else if s.rbEmpty then [.txReplayExit]
    else if s.cur.rpPass then
      if s.cur.rpId == s.cur.nts then [.txReplayPassend]
      else if (find s.cur.slots s.cur.rpId).isSome then [.txReplaySend]
      else [.txReplaySkip]
    else if s.passStart then [.txReplayAgain]
    else []
  | .idle => if s.passStart then [.txReplayEnter] else if s.reqDrop then [.txReplayDrop] else []

/-- R226, R236: the receive engine's operations that no input word selects. -/
def State.rxOps (s : State) : List Instr :=
  match s.cur.rxState with
  | .validating => s.decoded (.vc s.rxClass.code)
  | .waitspace => if decide (s.rxqCount < s.par.rxCap) then [.rxSpace] else []
  | .idle => []
  | .receiving => []

/-- The operations of a tick in which the link is up, but for the retry buffer's answers and the expiries. -/
def State.liveOps (s : State) : List Instr :=
  [.status] ++ s.decoded (.query s.req.query) ++ s.decoded (.pop (BitVec.ofBool s.line.rxqPop)) ++
    s.decoded (.ctlOut (ctlWord s.cur.ctlPending s.cur.ctlPositive s.cur.ctlId)) ++ s.replayOps ++
    s.decoded (.ctl s.line.cw) ++ s.decoded (.up s.line.uw) ++ s.framerOps ++ s.decoded (.beat s.line.bw) ++ s.rxOps

/-- R262: while the link is down or `rst` is 1, LINK.DOWN is the only operation. -/
def State.selected (s : State) : List Instr :=
  match decode s.decodeCtx (.link (linkWord s.line.rst s.line.linkUp)) with
  | .instr i => [i]
  | .rejected _ => s.liveOps

/-- R140: the requests raised in this tick, serviced in it: deletes, port A first (R146), the store, the send. -/
def State.requested (s : State) : List Instr :=
  s.decoded (.delA s.req.delA) ++ s.decoded (.delB s.req.delB) ++ s.decoded (.store s.req.store s.req.storeBytes) ++
    s.decoded (.send s.req.send)

/-- R210, R240, R241: the expiries. -/
def State.expired (s : State) : List Instr :=
  if s.line.live then
    (if s.replayExpires then [.txTimeout] else []) ++ (if s.ackExpires then [.rxKeepalive] else [])
  else []

/-! ### A table row's word as the next operation (log entry 6) -/

/-- The input line that carries a word on its port, every other input idle. -/
def wordLine : PortWord → Line
  | .up w => { Line.idle with uw := w }
  | .beat w => { Line.idle with bw := w }
  | .ctl w => { Line.idle with cw := w }
  | .delA w => { Line.idle with cw := ctlWord true true (rangeWordHi w) }
  | .delB _ => Line.idle
  | .store _ _ => Line.idle
  | .query _ => Line.idle
  | .send _ => Line.idle
  | .vc _ => Line.idle
  | .ctlOut _ => Line.idle
  | .pop w => { Line.idle with rxqPop := w.getLsbD 0 }
  | .link w => { Line.idle with rst := linkWordRst w, linkUp := linkWordUp w }

/-- A frame of id `i` with no payload and a good trailer, for the classes that need one (R228). -/
def goodFrame (p : Params) (i : Seq) : List Byte := frameBytes i [] (crcOf p.crc (header i))

/-- The registers that the condition of the operation needs, set to meet it; every other register as it is. -/
def meetCondition (p : Params) (r : Regs) : Instr → Regs
  | .rbStore id bytes =>
    { r with nts := id, rcState := .idle, frState := .crc3, txNull := false,
             txStage := bytes.take (bytes.length - 4), txCrc := unbe32 (bytes.drop (bytes.length - 4)) }
  | .rbDelete (.portA lo hi) => { r with unacked := seqRange lo hi }
  | .rbDelete (.portB id) => { r with nts := id, rcState := .idle, frState := .crc3, txNull := true }
  | .rbContains id => { r with rpId := id }
  | .rbSend (.start id) => { r with rcState := .replaying, rpPass := true, rpBusy := false, rpId := id }
  | .rbSend .beat => { r with rcState := .replaying, rpPass := true, rpBusy := true }
  | .txStart => { r with rcState := .idle, frState := .idle, replayReq := false }
  | .txData _ _ => { r with rcState := .idle, frState := .payload }
  | .txNullify => { r with rcState := .idle, frState := .payload, txStage := header r.nts }
  | .txOverlen _ => { r with rcState := .idle, frState := .payload }
  | .txAck id => { r with unacked := if r.unacked.contains id then r.unacked else [id] }
  | .txAckIgnored id => { r with unacked := r.unacked.filter (· != id) }
  | .txNak _ => { r with rpPass := false, replayReq := false }
  | .txNakIgnored _ => { r with rcState := .replaying, rpPass := true }
  | .rxStart _ _ _ => { r with rxState := .idle }
  | .rxStray => { r with rxState := .idle }
  | .rxData _ => { r with rxState := .receiving }
  | .rxEnd _ => { r with rxState := .receiving }
  | .rxTrunc _ => { r with rxState := .receiving }
  | .rxAccept =>
    { r with rxState := .validating, rxStage := goodFrame p r.nrs, rxTrunc := false, rxOversize := false }
  | .rxDup =>
    { r with rxState := .validating, rxStage := goodFrame p (seqDec r.nrs), rxTrunc := false, rxOversize := false }
  | .rxGap =>
    { r with rxState := .validating, rxStage := goodFrame p (seqInc r.nrs), rxTrunc := false, rxOversize := false }
  | .rxCorrupt => { r with rxState := .validating, rxStage := [] }
  | .ctlSend positive id => { r with ctlPending := true, ctlPositive := positive, ctlId := id }
  | .rxqPop => r
  | .linkDown _ _ => r
  | .seqDist _ _ => r
  | .seqInc _ => r
  | .seqDec _ => r
  | .seqOldeq _ _ => r
  | .seqPrecedes _ _ => r
  | .seqWinopen _ _ => r
  | .rbCount => r
  | .rbSendall => r
  | .txHdr1 => r
  | .txCrc => r
  | .txAbort => r
  | .txComplete => r
  | .txReplayEnter => r
  | .txReplayDrop => r
  | .txReplayExit => r
  | .txReplayPassend => r
  | .txReplaySend => r
  | .txReplayAgain => r
  | .txReplaySkip => r
  | .txReplayNext => r
  | .txTimeout => r
  | .rxSpace => r
  | .rxKeepalive => r
  | .status => r

/-- The state whose next tick runs the operation of a table row's word: the word on its port in the next input line, and the
condition of the operation met.  A word that selects nothing leaves the state as it is. -/
def placeWord (s : State) (nbits w : Nat) : State :=
  match tablePortWord nbits w, decodeTableWord nbits w with
  | some pw, some i =>
    let r := meetCondition s.par s.cur i
    { s with cur := r, nxt := r, inputs := wordLine pw :: s.inputs.tail }
  | _, _ => s

end Sys2Proof.Machine
end

