-- ==== Sys2Proof/Machine/Step.lean ====
section
/-! DEFINITION. The step: one tick (spec/20_memory.md R60, 44_sync_link.md R261). -/

namespace Sys2Proof.Machine

/-- Go on with the next state; a stop stays. -/
def andThen (o : Host.Outcome State Fault Refusal) (f : State → Host.Outcome State Fault Refusal) :
    Host.Outcome State Fault Refusal :=
  match o with
  | .next s => f s
  | .fault r => .fault r
  | .refused r => .refused r

/-- Run the operations of a list, front to back, each on the state the one before it leaves. -/
def runAll : List Instr → State → Host.Outcome State Fault Refusal
  | [], s => .next s
  | i :: is, s => andThen (exec i s) (runAll is)

/-- The operations of one tick, on a state that `beginTick` has prepared: those that words and conditions select, then the
requests they raised, then the expiries. -/
def runTick (s : State) : Host.Outcome State Fault Refusal :=
  andThen (runAll s.selected s) fun t => andThen (runAll t.requested t) fun u => runAll u.expired u

/-- One tick.  Parameters outside R7 are refused (93_implementation_defined.md U26). -/
def step (s : State) : Host.Outcome State Fault Refusal :=
  if s.par.wf then andThen (runTick s.beginTick) fun t => .next t.clockTimers.endTick
  else .refused .parametersOutOfRange

/-- The state whose next step runs the operation of a table row's word (log entry 6). -/
def State.withFetchWord (s : State) (nbits w : Nat) : State := placeWord s nbits w

end Sys2Proof.Machine
end

