-- ==== Sys2Proof/Safety.lean ====
section
/-! DEFINITION. The terms claims are stated in: the invariants of spec/10_state.md R48 and what has to hold beside them for a
tick to keep them, runs, which registers an engine owns (R45), and which values are unspecified (R50). -/

namespace Sys2Proof.Machine

/-! ### Runs -/

/-- `n` ticks, stopping at the first stop. -/
def ticks : Nat → State → Host.Outcome State Fault Refusal
  | 0, s => .next s
  | n + 1, s => andThen (step s) (ticks n)

/-! ### The invariants of R48 -/

/-- R48 (a): `unacked[j] = (nts - |unacked| + j) mod 4096`. -/
abbrev Regs.unackedConsecutive (r : Regs) : Prop :=
  r.unacked = (List.range r.unacked.length).map fun j =>
    r.nts - BitVec.ofNat 12 r.unacked.length + BitVec.ofNat 12 j

/-- R48 (b): the ids of the occupied slots are the ids in `unacked`, and there are as many of the ones as of the others, at
most N. -/
abbrev Regs.slotsMatchUnacked (p : Params) (r : Regs) : Prop :=
  (∀ sl ∈ r.slots, sl.occ = true → sl.id ∈ r.unacked) ∧
  (∀ i ∈ r.unacked, (find r.slots i).isSome = true) ∧
  occCount r.slots = r.unacked.length ∧ r.unacked.length ≤ p.nSlots

/-- R48 (c), R38: no two occupied slots hold the same id. -/
abbrev Regs.slotIdsDistinct (r : Regs) : Prop :=
  r.slots.Pairwise fun a b => ¬ (a.occ = true ∧ b.occ = true ∧ a.id = b.id)

/-- R48 (d): outside `RX_WAITSPACE` the receive queue has room. -/
abbrev Regs.queueHasRoom (p : Params) (r : Regs) : Prop :=
  r.rxState ≠ .waitspace → r.rxq.length < p.rxCap

/-- R48 (e): while replaying the framer is idle. -/
abbrev Regs.replayingFramerIdle (r : Regs) : Prop := r.rcState = .replaying → r.frState = .idle

/-- R48 (f): a frame is being re-sent only in a pass, while replaying. -/
abbrev Regs.busyInPass (r : Regs) : Prop :=
  r.rpBusy = true → r.rpPass = true ∧ r.rcState = .replaying

/-- R48, all six. -/
structure Regs.Consistent (p : Params) (r : Regs) : Prop where
  consecutive : r.unackedConsecutive
  matched     : r.slotsMatchUnacked p
  distinct    : r.slotIdsDistinct
  room        : r.queueHasRoom p
  framerIdle  : r.replayingFramerIdle
  busy        : r.busyInPass

/-! ### What keeps them -/

/-- R37, R67: N slots; an occupied one holds a frame of 6 to MAX_FRAME bytes. -/
abbrev Regs.slotsHoldFrames (p : Params) (r : Regs) : Prop :=
  r.slots.length = p.nSlots ∧
  ∀ sl ∈ r.slots, sl.occ = true → 6 ≤ sl.bytes.length ∧ sl.bytes.length ≤ maxFrame p

/-- R22, R125, 92_eei_decisions.md D15: the distance of the window test is the number of outstanding ids plus 1, and the window
lets at most 2047 be outstanding. -/
abbrev Regs.windowKept (r : Regs) : Prop :=
  r.lastAcked = r.nts - BitVec.ofNat 12 r.unacked.length - 1 ∧ r.unacked.length ≤ 2047

/-- R39, R66, R172 to R180: what `tx_stage` holds in each state of the framer; inside a frame there is a free slot for it and
room in the window. -/
abbrev Regs.framerStaged (p : Params) (r : Regs) : Prop :=
  (r.frState = .idle → r.txStage = []) ∧
  (r.frState = .hdr1 → r.txStage.length = 1 ∧ r.txNull = false) ∧
  (r.frState = .payload → 2 ≤ r.txStage.length ∧ r.txStage.length < p.maxPayload + 2 ∧ r.txNull = false) ∧
  (r.frState ≠ .idle → r.frState ≠ .hdr1 → r.frState ≠ .payload →
    2 ≤ r.txStage.length ∧ r.txStage.length ≤ p.maxPayload + 2) ∧
  (r.frState ≠ .idle → r.unacked.length < p.nSlots ∧ r.unacked.length < 2047)

/-- R42, R198: the byte due is one of the copy; a pass is only live while replaying; its cursor is at most N ids before `nts`,
and not at `nts` while a frame is being re-sent. -/
abbrev Regs.passKept (p : Params) (r : Regs) : Prop :=
  (r.rpBusy = true → r.rpPos < r.rpBytes.length ∧ r.rpBytes.length ≤ maxFrame p ∧ r.rpId ≠ r.nts) ∧
  (r.rpPass = true → r.rcState = .replaying ∧ (seqDist r.nts r.rpId).toNat ≤ p.nSlots)

/-- R40, R41, R66, R226: the receive side's stores within their bounds; the staging is empty between frames. -/
abbrev Regs.receiverStaged (p : Params) (r : Regs) : Prop :=
  r.rxStage.length ≤ maxFrame p ∧
  (r.rxState = .idle ∨ r.rxState = .waitspace → r.rxStage = [] ∧ r.rxTrunc = false ∧ r.rxOversize = false) ∧
  r.rxq.length ≤ p.rxCap ∧ ∀ e ∈ r.rxq, e.payload.length ≤ p.maxPayload

/-- R24, R26, R298: the timers stay below their limits. -/
abbrev Regs.timersInRange (p : Params) (r : Regs) : Prop :=
  r.replayTimer < p.replayLimit ∧ r.ackTimer < p.ackLimit

/-- What every tick keeps: the ranges of R7, the invariants of R48, and the rest. -/
structure State.Inv (s : State) : Prop where
  build      : s.par.wf = true
  consistent : s.cur.Consistent s.par
  frames     : s.cur.slotsHoldFrames s.par
  window     : s.cur.windowKept
  framer     : s.cur.framerStaged s.par
  pass       : s.cur.passKept s.par
  receiver   : s.cur.receiverStaged s.par
  timers     : s.cur.timersInRange s.par

/-! ### What happens in a tick -/

/-- R180: a good frame completes in this tick. -/
def State.completes (s : State) : Bool := s.framing .crc3 && !s.cur.txNull && s.line.txReady

/-- R243, R244: the receive queue after this tick's pop. -/
def State.queueAfterPop (s : State) : List RxEntry := if s.line.rxqPop then s.cur.rxq.tail else s.cur.rxq

/-- R230 to R236: the message, ACK or NAK and its id, that a validation or RX.SPACE schedules in this tick, if any. -/
def State.scheduledNow (s : State) : Option (Bool × Seq) :=
  match s.cur.rxState with
  | .validating =>
    match s.rxClass with
    | .accept => if s.queueAfterPop.length + 1 = s.par.rxCap then none else some (true, rxId s.cur.rxStage)
    | .duplicate => some (true, seqDec s.cur.nrs)
    | .gap => if s.cur.nakScheduled then none else some (false, seqDec s.cur.nrs)
    | .corrupt => if s.cur.nakScheduled then none else some (false, seqDec s.cur.nrs)
  | .waitspace => if s.cur.rxq.length < s.par.rxCap then some (true, seqDec s.cur.nrs) else none
  | .idle => none
  | .receiving => none

/-- R240, line 3, R241: the ack timer reaches its limit in this tick. -/
def State.keepsAlive (s : State) : Bool :=
  s.scheduledNow.isNone && s.cur.rxState != .waitspace && decide (s.par.ackLimit ≤ s.cur.ackTimer + 1)

/-- The condition under which an operation happens in a tick with the link up (spec/opcode_table.json, column cond), but for
the `ready` of a port that takes a byte or a message: with the `ready` low the operation still offers it.  The operations that
a request or a word alone selects, and the functions, have no condition. -/
def State.selects (s : State) : Instr → Bool
  | .seqDist _ _ => true
  | .seqInc _ => true
  | .seqDec _ => true
  | .seqOldeq _ _ => true
  | .seqPrecedes _ _ => true
  | .seqWinopen _ _ => true
  | .rbStore _ _ => true
  | .rbDelete _ => true
  | .rbContains _ => true
  | .rbCount => true
  | .rbSend (.start _) => true
  | .rbSend .beat => s.cur.rpBusy
  | .rbSendall => s.cur.rcState == .replaying || s.passStart
  | .txStart => s.canStart
  | .txHdr1 => s.framing .hdr1
  | .txData last _ => s.framing .payload && !(!last && s.atMax)
  | .txNullify => s.framing .payload
  | .txCrc => s.framing .crc0 || s.framing .crc1 || s.framing .crc2
  | .txOverlen _ => s.framing .payload && s.atMax
  | .txAbort => s.framing .crc3 && s.cur.txNull
  | .txComplete => s.framing .crc3 && !s.cur.txNull
  | .txReplayEnter => s.cur.rcState == .idle && s.passStart
  | .txReplayDrop => s.reqDrop
  | .txReplayExit => s.replayWaiting && s.rbCount == 0
  | .txReplayPassend => s.passBetween && s.cur.rpId == s.cur.nts
  | .txReplaySend => s.passBetween && s.cur.rpId != s.cur.nts && (find s.cur.slots s.cur.rpId).isSome
  | .txReplayAgain => s.cur.rcState == .replaying && s.passStart
  | .txReplaySkip => s.passBetween && s.cur.rpId != s.cur.nts && (find s.cur.slots s.cur.rpId).isNone
  | .txReplayNext => s.cur.rpBusy && s.lastBeat && s.line.txReady
  | .txAck id => s.cur.unacked.contains id
  | .txAckIgnored id => !s.cur.unacked.contains id
  | .txNak _ => !s.passLive && !s.passStart
  | .txNakIgnored _ => s.passLive || s.passStart
  | .txTimeout => s.replayExpires
  | .rxStart _ _ _ => s.cur.rxState == .idle
  | .rxStray => s.cur.rxState == .idle
  | .rxData _ => s.cur.rxState == .receiving
  | .rxEnd _ => s.cur.rxState == .receiving
  | .rxTrunc _ => s.cur.rxState == .receiving
  | .rxAccept => s.cur.rxState == .validating && s.rxClass == .accept
  | .rxDup => s.cur.rxState == .validating && s.rxClass == .duplicate
  | .rxGap => s.cur.rxState == .validating && s.rxClass == .gap
  | .rxCorrupt => s.cur.rxState == .validating && s.rxClass == .corrupt
  | .rxSpace => s.cur.rxState == .waitspace && decide (s.rxqCount < s.par.rxCap)
  | .ctlSend positive id => s.cur.ctlPending && s.cur.ctlPositive == positive && s.cur.ctlId == id
  | .rxKeepalive => s.ackExpires
  | .rxqPop => decide (0 < s.rxqCount)
  | .linkDown rst linkUp => rst || !linkUp
  | .status => true

/-- The operations that a tick with the link down does not stop: the pure functions and the reset itself (R105, R262). -/
def anyTick : Instr → Bool
  | .seqDist _ _ => true
  | .seqInc _ => true
  | .seqDec _ => true
  | .seqOldeq _ _ => true
  | .seqPrecedes _ _ => true
  | .seqWinopen _ _ => true
  | .rbCount => true
  | .linkDown _ _ => true
  | .rbStore _ _ => false
  | .rbDelete _ => false
  | .rbContains _ => false
  | .rbSend _ => false
  | .rbSendall => false
  | .txStart => false
  | .txHdr1 => false
  | .txData _ _ => false
  | .txNullify => false
  | .txCrc => false
  | .txOverlen _ => false
  | .txAbort => false
  | .txComplete => false
  | .txReplayEnter => false
  | .txReplayDrop => false
  | .txReplayExit => false
  | .txReplayPassend => false
  | .txReplaySend => false
  | .txReplayAgain => false
  | .txReplaySkip => false
  | .txReplayNext => false
  | .txAck _ => false
  | .txAckIgnored _ => false
  | .txNak _ => false
  | .txNakIgnored _ => false
  | .txTimeout => false
  | .rxStart _ _ _ => false
  | .rxStray => false
  | .rxData _ => false
  | .rxEnd _ => false
  | .rxTrunc _ => false
  | .rxAccept => false
  | .rxDup => false
  | .rxGap => false
  | .rxCorrupt => false
  | .rxSpace => false
  | .ctlSend _ _ => false
  | .rxKeepalive => false
  | .rxqPop => false
  | .status => false

/-! ### Unspecified values, R50 -/

/-- The slot with what R50 leaves unspecified blanked out. -/
def Slot.seen (sl : Slot) : Slot := if sl.occ then sl else Slot.free

/-- R30: the framer is in a trailer state. -/
def Regs.inTrailer (r : Regs) : Bool :=
  r.frState == .crc0 || r.frState == .crc1 || r.frState == .crc2 || r.frState == .crc3

/-- The registers with every value that R50 leaves unspecified blanked out: `id` and `bytes` of a free slot, `tx_crc` outside
the trailer states, `ctl_positive` and `ctl_id` while nothing is pending, `rp_id` while no pass is live; and `rp_bytes` and
`rp_pos` while no frame is being re-sent, which takes in R50's time without a pass and the ticks of a pass before RB.SEND
writes them. -/
def Regs.seen (r : Regs) : Regs :=
  { r with
      slots := r.slots.map Slot.seen
      txCrc := if r.inTrailer then r.txCrc else 0
      ctlPositive := if r.ctlPending then r.ctlPositive else false
      ctlId := if r.ctlPending then r.ctlId else 0
      rpId := if r.rpPass then r.rpId else 0
      rpBytes := if r.rpBusy then r.rpBytes else []
      rpPos := if r.rpBusy then r.rpPos else 0 }

/-! ### Ownership, R45 -/

/-- The registers of the receive engine (R20, column owner), as they stand in `r`, in the registers `base`. -/
def Regs.withReceiverOf (base r : Regs) : Regs :=
  { base with
      nrs := r.nrs, rxState := r.rxState, rxStage := r.rxStage, rxTrunc := r.rxTrunc, rxOversize := r.rxOversize,
      nakScheduled := r.nakScheduled, ackTimer := r.ackTimer, ctlPending := r.ctlPending, ctlPositive := r.ctlPositive,
      ctlId := r.ctlId, rxq := r.rxq }

/-- Two register files agree on every register of the transmit engine and the retry buffer. -/
abbrev Regs.sameTransmit (a b : Regs) : Prop := a.withReceiverOf b = b

/-- Two register files agree on every register of the receive engine. -/
abbrev Regs.sameReceive (a b : Regs) : Prop := a.withReceiverOf b = a

/-- The input ports the transmit side looks at: the link state, the upper layer, `tx_ready`, the incoming control channel. -/
abbrev Line.sameTransmit (a b : Line) : Prop :=
  a.rst = b.rst ∧ a.linkUp = b.linkUp ∧ a.uw = b.uw ∧ a.txReady = b.txReady ∧ a.cw = b.cw

/-- The input ports the receive side looks at: the link state, the incoming stream, `ctl_tx_ready`, `rxq_pop`. -/
abbrev Line.sameReceive (a b : Line) : Prop :=
  a.rst = b.rst ∧ a.linkUp = b.linkUp ∧ a.bw = b.bw ∧ a.ctlTxReady = b.ctlTxReady ∧ a.rxqPop = b.rxqPop

end Sys2Proof.Machine
end

