-- ==== Sys2Proof/Certificates/Slice0/Obligations.lean ====
section
/-! DEFINITION. The statements for the provers: what each operation does, one at a time (`exec`), and what a tick does
(`step`).  In a statement about `exec`, `s.cur` are the start-of-tick registers, `s.line` the inputs of the tick, and a field of
`s.nxt` the value a register will have at the start of the next tick (spec/20_memory.md R60); the whole next state is written
out, so that whatever it does not name is unchanged. -/

open Sys2Proof Sys2Proof.Machine

/-! ### Sequence arithmetic -/

/-- R120, R121, R122: the three results, with the corner cases the rules list.  Nothing but the answer changes. -/
def Obligations.SequenceArithmetic : Prop :=
  (∀ (a b : Seq) (s : State),
    exec (.seqDist a b) s =
      .next { s with ans := { s.ans with seqResult := BitVec.ofNat 12 ((a.toNat + 4096 - b.toNat) % 4096) } }) ∧
  (∀ (a : Seq) (s : State),
    exec (.seqInc a) s = .next { s with ans := { s.ans with seqResult := BitVec.ofNat 12 ((a.toNat + 1) % 4096) } }) ∧
  (∀ (a : Seq) (s : State),
    exec (.seqDec a) s = .next { s with ans := { s.ans with seqResult := BitVec.ofNat 12 ((a.toNat + 4095) % 4096) } }) ∧
  (∀ a : Seq, seqDist a a = 0) ∧
  (∀ a b : Seq, a ≠ b → (seqDist a b).toNat + (seqDist b a).toNat = 4096) ∧
  (∀ a b : Seq, a ≠ b → (seqDist a b).toNat ≠ 2048 → ((seqDist a b).toNat < 2048 ↔ ¬ (seqDist b a).toNat < 2048)) ∧
  (∀ a b : Seq, (seqDist a b).toNat = 2048 ↔ (seqDist b a).toNat = 2048) ∧
  (∀ a k : Seq, seqDist (a + k) a = k) ∧
  seqInc 4095 = 0 ∧ seqDec 0 = 4095

/-- R123, R124, R125: the three tests, with the corner cases the rules list. -/
def Obligations.SequenceTests : Prop :=
  (∀ (ref i : Seq) (s : State), exec (.seqOldeq ref i) s =
    .next { s with ans := { s.ans with testResult := decide ((ref.toNat + 4096 - i.toNat) % 4096 ≤ 2048) } }) ∧
  (∀ (x y : Seq) (s : State), exec (.seqPrecedes x y) s =
    .next { s with ans :=
      { s.ans with testResult := decide (x ≠ y) && decide ((y.toNat + 4096 - x.toNat) % 4096 ≤ 2048) } }) ∧
  (∀ (nts lastAcked : Seq) (s : State), exec (.seqWinopen nts lastAcked) s =
    .next { s with ans :=
      { s.ans with testResult := decide ((nts.toNat + 4096 - lastAcked.toNat) % 4096 < 2048) } }) ∧
  (∀ ref : Seq, seqOldeq ref ref = true ∧ seqOldeq ref (ref - 2048) = true ∧ seqOldeq ref (ref - 2049) = false ∧
    seqOldeq ref (ref + 1) = false) ∧
  (∀ x : Seq, seqPrecedes x x = false ∧ seqPrecedes x (x + 2048) = true ∧ seqPrecedes (x + 2048) x = true) ∧
  (∀ x y : Seq, x ≠ y → y ≠ x + 2048 → seqPrecedes x y = !seqPrecedes y x) ∧
  (∀ ref i : Seq, seqOldeq ref i = (i == ref || seqPrecedes i ref)) ∧
  seqWinopen 0 4095 = true ∧ seqWinopen 2047 4095 = false

/-- R126, (a) to (e). -/
def Obligations.SequenceLaws : Prop :=
  (∀ a : Seq, seqDist (seqInc a) a = 1 ∧ seqDist a (seqInc a) = 4095) ∧
  (∀ a b k : Seq, seqDist (a + k) (b + k) = seqDist a b) ∧
  (∀ a : Seq, seqOldeq (seqInc a) a = true) ∧
  (∀ ref j : Seq, (j.toNat < 2048 → seqOldeq ref (ref - j) = true) ∧
    (1 ≤ j.toNat → j.toNat ≤ 2047 → seqOldeq ref (ref + j) = false)) ∧
  (∀ nrs i : Seq,
    (i = nrs ∧ ¬(i ≠ nrs ∧ seqOldeq nrs i = true) ∧ seqOldeq nrs i = true) ∨
    (i ≠ nrs ∧ seqOldeq nrs i = true) ∨
    (i ≠ nrs ∧ seqOldeq nrs i = false))

/-! ### The retry buffer -/

/-- R141, R69: a store of an id that is held, or into a full buffer, changes nothing; any other takes the lowest free slot. -/
def Obligations.StoreTakesFirstFreeSlot : Prop :=
  ∀ (id : Seq) (bytes : List Byte) (s : State), s.line.live = true → s.cur.slots.length = s.par.nSlots →
    (((∃ sl ∈ s.cur.slots, sl.occ = true ∧ sl.id = id) ∨ occCount s.cur.slots = s.par.nSlots) →
      exec (.rbStore id bytes) s = .next s) ∧
    ((∀ sl ∈ s.cur.slots, ¬ (sl.occ = true ∧ sl.id = id)) → occCount s.cur.slots ≠ s.par.nSlots →
      ∃ k, (∃ sl, s.cur.slots[k]? = some sl ∧ sl.occ = false) ∧
        (∀ j, j < k → ∃ sl, s.cur.slots[j]? = some sl ∧ sl.occ = true) ∧
        exec (.rbStore id bytes) s =
          .next { s with nxt :=
            { s.nxt with slots := s.nxt.slots.set k { occ := true, id := id, bytes := bytes } } })

/-- R143: a delete clears `occ` of the slot that holds the id and does nothing else to it; an absent id changes no slot.  Port
A names every id from `lo` to `hi` in sequence order, both included (R101).  The delete list of R146 gets the ids. -/
def Obligations.DeleteClearsOccupied : Prop :=
  ∀ s : State, s.line.live = true → s.dels = [] → s.cur.slotIdsDistinct →
    (∀ id : Seq, ∃ sl, exec (.rbDelete (.portB id)) s =
        .next { s with nxt := { s.nxt with slots := sl }, dels := [(id, .nullification)] } ∧
      ∀ k : Nat, sl[k]? =
        if s.cur.slots[k]?.any (fun c => c.occ && c.id == id)
        then s.nxt.slots[k]?.map (fun c => { c with occ := false }) else s.nxt.slots[k]?) ∧
    (∀ lo hi : Seq, ∃ sl, exec (.rbDelete (.portA lo hi)) s =
        .next { s with
          nxt := { s.nxt with slots := sl },
          dels := (List.range ((hi - lo).toNat + 1)).map fun k => (lo + BitVec.ofNat 12 k, .acknowledgement) } ∧
      ∀ k : Nat, sl[k]? =
        if s.cur.slots[k]?.any (fun c => c.occ && decide ((c.id - lo).toNat ≤ (hi - lo).toNat))
        then s.nxt.slots[k]?.map (fun c => { c with occ := false }) else s.nxt.slots[k]?)

/-- R146: a tick services port A before port B; a request for an id that an earlier entry names is dropped, so that the
acknowledgement is recorded; and the slots end the same in the other order. -/
def Obligations.DeleteArbitration : Prop :=
  (∀ (s : State) (lo hi i : Seq), s.req.delA = rangeWord true lo hi → s.req.delB = reqWord true i →
    ∃ rest, s.requested = .rbDelete (.portA lo hi) :: .rbDelete (.portB i) :: rest ∧ ∀ r, Instr.rbDelete r ∉ rest) ∧
  (∀ (s : State) (i : Seq) (c : DelCause), (i, c) ∈ s.dels → exec (.rbDelete (.portB i)) s = .next s) ∧
  (∀ (s : State) (lo hi i : Seq), s.line.live = true → s.dels = [] →
    ∃ t u, runAll [.rbDelete (.portA lo hi), .rbDelete (.portB i)] s = .next t ∧
      runAll [.rbDelete (.portB i), .rbDelete (.portA lo hi)] s = .next u ∧
      t.dels = ((List.range ((hi - lo).toNat + 1)).map fun k => (lo + BitVec.ofNat 12 k, DelCause.acknowledgement)) ++
        (if (i - lo).toNat ≤ (hi - lo).toNat then [] else [(i, .nullification)]) ∧
      u.nxt.slots = t.nxt.slots)

/-- R144, R145 with R36: membership and occupancy of the start-of-tick slots; nothing but the answer changes. -/
def Obligations.MembershipAndOccupancy : Prop :=
  (∀ (id : Seq) (s : State), s.line.live = true →
    exec (.rbContains id) s =
      .next { s with ans := { s.ans with qHit := s.cur.slots.any fun sl => sl.occ && sl.id == id } }) ∧
  (∀ s : State,
    exec .rbCount s =
      .next { s with ans :=
        { s.ans with
            rbCount := (s.cur.slots.filter fun sl => sl.occ).length
            rbFull := decide ((s.cur.slots.filter fun sl => sl.occ).length = s.par.nSlots)
            rbEmpty := decide ((s.cur.slots.filter fun sl => sl.occ).length = 0) } })

/-- R150, R151: the start of a send copies the frame of the slot that holds the id, and does nothing for an absent id; a beat
offers the byte that is due and, when it is taken, moves to the next byte or ends the frame.  That of two slots with one id,
which no run reaches, the lowest is copied is the model's choice (log entry 17), not R70's. -/
def Obligations.SendStreamsTheStoredFrame : Prop :=
  (∀ (id : Seq) (s : State), s.line.live = true →
    ((∀ sl ∈ s.cur.slots, ¬ (sl.occ = true ∧ sl.id = id)) → exec (.rbSend (.start id)) s = .next s) ∧
    (∀ (k : Nat) (sl : Slot), s.cur.slots[k]? = some sl → sl.occ = true → sl.id = id →
      (∀ (j : Nat) (c : Slot), j < k → s.cur.slots[j]? = some c → ¬ (c.occ = true ∧ c.id = id)) →
      exec (.rbSend (.start id)) s =
        .next { s with nxt := { s.nxt with rpBytes := sl.bytes, rpPos := 0, rpBusy := true } })) ∧
  (∀ (b : Byte) (s : State), s.line.live = true → s.cur.rpBusy = true → s.cur.rpBytes[s.cur.rpPos]? = some b →
    let o := { s.out with txValid := true, txData := b, txSof := decide (s.cur.rpPos = 0),
                          txEof := decide (s.cur.rpPos = s.cur.rpBytes.length - 1), txBad := false }
    (s.line.txReady = false → exec (.rbSend .beat) s = .next { s with out := o }) ∧
    (s.line.txReady = true → s.cur.rpPos = s.cur.rpBytes.length - 1 →
      exec (.rbSend .beat) s =
        .next { s with out := o, nxt := { s.nxt with rpBusy := false, rpPos := 0, rpBytes := [] } }) ∧
    (s.line.txReady = true → s.cur.rpPos ≠ s.cur.rpBytes.length - 1 →
      exec (.rbSend .beat) s = .next { s with out := o, nxt := { s.nxt with rpPos := s.cur.rpPos + 1 } }))

/-- R152: RB.SENDALL is the replay pass.  One tick of it (the model's reading, log entry 10) does what the operations that the
pass selects in that tick do together, the send they ask for serviced. -/
def Obligations.SendAllIsThePass : Prop :=
  ∀ s : State, s.line.live = true → s.reqDrop = false → s.req.send = 0 →
    ∃ u v, runAll s.replayOps s = .next u ∧ runAll (u.decoded (.send u.req.send)) u = .next v ∧
      exec .rbSendall s = .next { v with req := s.req }

/-! ### The framer -/

/-- R172: while the start condition holds the first header byte is offered; when it is taken the frame starts. -/
def Obligations.StartOffersHeaderByte : Prop :=
  ∀ s : State, s.line.live = true → s.cur.rcState = .idle → s.cur.replayReq = false → s.cur.frState = .idle →
    (s.cur.nts - s.cur.lastAcked).toNat < 2048 → occCount s.cur.slots < s.par.nSlots → upWordValid s.line.uw = true →
    let h : Byte := (0 : BitVec 4) ++ s.cur.nts.extractLsb' 8 4
    let o := { s.out with txValid := true, txData := h, txSof := true, txEof := false, txBad := false }
    (s.line.txReady = false → exec .txStart s = .next { s with out := o }) ∧
    (s.line.txReady = true →
      exec .txStart s = .next { s with out := o, nxt := { s.nxt with txStage := [h], txNull := false, frState := .hdr1 } })

/-- R174: the second header byte. -/
def Obligations.Hdr1OffersHeaderByte : Prop :=
  ∀ s : State, s.line.live = true → s.cur.rcState = .idle → s.cur.frState = .hdr1 →
    let h : Byte := s.cur.nts.extractLsb' 0 8
    let o := { s.out with txValid := true, txData := h, txSof := false, txEof := false, txBad := false }
    (s.line.txReady = false → exec .txHdr1 s = .next { s with out := o }) ∧
    (s.line.txReady = true →
      exec .txHdr1 s = .next { s with out := o, nxt := { s.nxt with txStage := s.cur.txStage ++ [h], frState := .payload } })

/-- R175: a payload byte passes through; with `up_last` the good trailer is computed, else the framer stays, but for the byte
number MAX_PAYLOAD, which is TX.OVERLEN's. -/
def Obligations.DataPassesThrough : Prop :=
  ∀ (last : Bool) (d : Byte) (s : State), s.line.live = true → s.cur.rcState = .idle → s.cur.frState = .payload →
    (last = false → s.cur.txStage.length + 1 ≠ s.par.maxPayload + 2) →
    let st := s.cur.txStage ++ [d]
    let o := { s.out with txValid := true, txData := d, txSof := false, txEof := false, txBad := false,
                          upReady := s.line.txReady }
    (s.line.txReady = false → exec (.txData last d) s = .next { s with out := o }) ∧
    (s.line.txReady = true → last = true →
      exec (.txData last d) s =
        .next { s with out := o, nxt := { s.nxt with txStage := st, txCrc := crcOf s.par.crc st, frState := .crc0 } }) ∧
    (s.line.txReady = true → last = false →
      exec (.txData last d) s = .next { s with out := o, nxt := { s.nxt with txStage := st } })

/-- R176: no byte in `F_PAYLOAD`, whatever `tx_ready` is: the frame is nullified.  R178: payload byte number MAX_PAYLOAD without
`up_last`: sent and staged, and the frame is nullified. -/
def Obligations.NullificationComplementsTrailer : Prop :=
  (∀ s : State, s.line.live = true → s.cur.rcState = .idle → s.cur.frState = .payload →
    exec .txNullify s =
      .next { s with
        out := { s.out with upReady := s.line.txReady }
        nxt := { s.nxt with txNull := true, txCrc := ~~~ crcOf s.par.crc s.cur.txStage, frState := .crc0 } }) ∧
  (∀ (d : Byte) (s : State), s.line.live = true → s.cur.rcState = .idle → s.cur.frState = .payload →
    s.cur.txStage.length + 1 = s.par.maxPayload + 2 →
    let st := s.cur.txStage ++ [d]
    let o := { s.out with txValid := true, txData := d, txSof := false, txEof := false, txBad := false,
                          upReady := s.line.txReady }
    (s.line.txReady = false → exec (.txOverlen d) s = .next { s with out := o }) ∧
    (s.line.txReady = true →
      exec (.txOverlen d) s =
        .next { s with
          out := o
          nxt := { s.nxt with txStage := st, txNull := true, txCrc := ~~~ crcOf s.par.crc st, frState := .crc0 } }))

/-- R177: trailer bytes 0, 1, 2. -/
def Obligations.CrcBytesInOrder : Prop :=
  ∀ (b : Byte) (f g : FrState) (s : State), s.line.live = true → s.cur.rcState = .idle → s.cur.frState = f →
    ((f = .crc0 ∧ g = .crc1 ∧ b = s.cur.txCrc.extractLsb' 24 8) ∨
     (f = .crc1 ∧ g = .crc2 ∧ b = s.cur.txCrc.extractLsb' 16 8) ∨
     (f = .crc2 ∧ g = .crc3 ∧ b = s.cur.txCrc.extractLsb' 8 8)) →
    let o := { s.out with txValid := true, txData := b, txSof := false, txEof := false, txBad := false }
    (s.line.txReady = false → exec .txCrc s = .next { s with out := o }) ∧
    (s.line.txReady = true → exec .txCrc s = .next { s with out := o, nxt := { s.nxt with frState := g } })

/-- R179: the last beat of a nullified frame, with the truncation marker; the delete of `nts` is asked for on port B. -/
def Obligations.AbortEndsNullifiedFrame : Prop :=
  ∀ s : State, s.line.live = true → s.cur.rcState = .idle → s.cur.frState = .crc3 → s.cur.txNull = true →
    let o := { s.out with txValid := true, txData := s.cur.txCrc.extractLsb' 0 8, txSof := false, txEof := true, txBad := true }
    (s.line.txReady = false → exec .txAbort s = .next { s with out := o }) ∧
    (s.line.txReady = true →
      exec .txAbort s =
        .next { s with
          out := o
          req := { s.req with delB := reqWord true s.cur.nts }
          nxt := { s.nxt with frState := .idle, txStage := [], txNull := false } })

/-- R180: the last beat of a good frame: the store is asked for, the id joins `unacked` after this tick's removals, `nts`
counts up. -/
def Obligations.CompleteEndsGoodFrame : Prop :=
  ∀ s : State, s.line.live = true → s.cur.rcState = .idle → s.cur.frState = .crc3 → s.cur.txNull = false →
    let o := { s.out with txValid := true, txData := s.cur.txCrc.extractLsb' 0 8, txSof := false, txEof := true, txBad := false }
    (s.line.txReady = false → exec .txComplete s = .next { s with out := o }) ∧
    (s.line.txReady = true →
      exec .txComplete s =
        .next { s with
          out := o
          req := { s.req with store := reqWord true s.cur.nts, storeBytes := s.cur.txStage ++ be32 s.cur.txCrc }
          nxt := { s.nxt with unacked := s.nxt.unacked ++ [s.cur.nts], nts := s.cur.nts + 1, frState := .idle, txStage := [] } })

/-! ### The replay controller -/

/-- R192, R197: a pass starts at the head of `unacked` (R190), from `RC_IDLE` by entering Replaying, else without leaving it. -/
def Obligations.PassStartsAtHead : Prop :=
  ∀ s : State, s.line.live = true → s.cur.replayReq = true → 0 < occCount s.cur.slots →
    let head := if h : s.cur.unacked = [] then s.cur.nts else s.cur.unacked.head h
    let r := { s.nxt with rpPass := true, rpId := head, rpBusy := false, replayCount := s.cur.replayCount + 1,
                          replayReq := false, replayTimer := 0 }
    (s.cur.rcState = .idle → s.cur.frState = .idle →
      exec .txReplayEnter s = .next { s with nxt := { r with rcState := .replaying } }) ∧
    (s.cur.rcState = .replaying → s.cur.rpBusy = false → s.cur.rpPass = false →
      exec .txReplayAgain s = .next { s with nxt := r })

/-- R193, R194, R195: a request with nothing stored is dropped; Replaying is left when the buffer is empty and nothing is being
sent; a pass ends when its cursor has reached `nts`. -/
def Obligations.PassEndsAndExits : Prop :=
  (∀ s : State, s.line.live = true → s.cur.replayReq = true → s.cur.rcState = .idle → s.cur.frState = .idle →
    occCount s.cur.slots = 0 → exec .txReplayDrop s = .next { s with nxt := { s.nxt with replayReq := false } }) ∧
  (∀ s : State, s.line.live = true → s.cur.rcState = .replaying → s.cur.rpBusy = false → occCount s.cur.slots = 0 →
    exec .txReplayExit s = .next { s with nxt := { s.nxt with rcState := .idle, rpPass := false } }) ∧
  (∀ s : State, s.line.live = true → s.cur.rcState = .replaying → s.cur.rpBusy = false → 0 < occCount s.cur.slots →
    s.cur.rpPass = true → s.cur.rpId = s.cur.nts →
    exec .txReplayPassend s = .next { s with nxt := { s.nxt with rpPass := false } })

/-- R196, R198, R199: the cursor's frame is asked for; an id no longer stored is stepped over; after the last beat of a re-sent
frame the cursor moves. -/
def Obligations.CursorWalksTheFrames : Prop :=
  (∀ s : State, s.line.live = true → s.cur.rcState = .replaying → s.cur.rpBusy = false → 0 < occCount s.cur.slots →
    s.cur.rpPass = true → s.cur.rpId ≠ s.cur.nts →
    ((∃ sl ∈ s.cur.slots, sl.occ = true ∧ sl.id = s.cur.rpId) →
      exec .txReplaySend s = .next { s with req := { s.req with send := reqWord true s.cur.rpId } }) ∧
    ((∀ sl ∈ s.cur.slots, ¬ (sl.occ = true ∧ sl.id = s.cur.rpId)) →
      exec .txReplaySkip s = .next { s with nxt := { s.nxt with rpId := s.cur.rpId + 1 } })) ∧
  (∀ s : State, s.line.live = true → s.cur.rpBusy = true → s.cur.rpPos + 1 = s.cur.rpBytes.length → s.line.txReady = true →
    exec .txReplayNext s = .next { s with nxt := { s.nxt with rpId := s.cur.rpId + 1 } })

/-! ### The acknowledgement logic and the replay timer -/

/-- R205: an effective ACK asks for the delete of every id from the head to `x`, takes them off `unacked`, moves `last_acked`
and resets the timer.  That `x` is meant where it stands first, if it stands in `unacked` twice, which no run reaches, is the
model's choice (log entry 17). -/
def Obligations.AckReleasesUpToId : Prop :=
  ∀ (before after : List Seq) (x : Seq) (s : State), s.line.live = true → s.cur.unacked = before ++ x :: after → x ∉ before →
    exec (.txAck x) s =
      .next { s with
        req := { s.req with delA := rangeWord true ((before ++ [x]).headD 0) x }
        nxt := { s.nxt with unacked := after, lastAcked := x, replayTimer := 0 } }

/-- R206, R208: the ignored messages change nothing, in any state. -/
def Obligations.IgnoredMessagesChangeNothing : Prop :=
  ∀ (x : Seq) (s : State), exec (.txAckIgnored x) s = .next s ∧ exec (.txNakIgnored x) s = .next s

/-- R207: a NAK while no pass is live or starts asks for a replay, and changes nothing else, whatever its id. -/
def Obligations.NakAsksForReplay : Prop :=
  ∀ (x : Seq) (s : State), s.line.live = true →
    ¬ (s.cur.rcState = .replaying ∧ s.cur.rpPass = true) →
    ¬ (s.cur.replayReq = true ∧ 0 < occCount s.cur.slots ∧
        ((s.cur.rcState = .idle ∧ s.cur.frState = .idle) ∨
         (s.cur.rcState = .replaying ∧ s.cur.rpBusy = false ∧ s.cur.rpPass = false))) →
    exec (.txNak x) s = .next { s with nxt := { s.nxt with replayReq := true } }

/-- R210, TX.TIMEOUT: the condition of its third line and its effect. -/
def Obligations.TimeoutAsksForReplay : Prop :=
  ∀ s : State, s.line.live = true → s.nxt.unacked ≠ [] → s.cur.unacked ≠ [] → s.ackEffective = false → s.passLive = false →
    s.passStart = false → s.par.replayLimit ≤ s.cur.replayTimer + 1 →
    exec .txTimeout s = .next { s with nxt := { s.nxt with replayTimer := 0, replayReq := true } }

/-! ### The receive engine -/

/-- R221, R222: the first byte of a frame, and a byte outside any frame. -/
def Obligations.StartOrStrayByte : Prop :=
  ∀ s : State, s.line.live = true → s.cur.rxState = .idle →
    (∀ (bad : Bool) (d : Byte), exec (.rxStart true bad d) s =
      .next { s with nxt := { s.nxt with rxStage := [d], rxOversize := false, rxTrunc := bad, rxState := .validating } }) ∧
    (∀ (bad : Bool) (d : Byte), exec (.rxStart false bad d) s =
      .next { s with nxt := { s.nxt with rxStage := [d], rxOversize := false, rxState := .receiving } }) ∧
    exec .rxStray s = .next s

/-- R223, R224, R225: a further byte is appended, or noted as too many; the last one ends the frame with its marker. -/
def Obligations.FrameBytesCaptured : Prop :=
  ∀ (d : Byte) (s : State), s.line.live = true → s.cur.rxState = .receiving →
    (s.cur.rxStage.length < s.par.maxPayload + 6 →
      exec (.rxData d) s = .next { s with nxt := { s.nxt with rxStage := s.cur.rxStage ++ [d] } } ∧
      exec (.rxEnd d) s =
        .next { s with nxt := { s.nxt with rxStage := s.cur.rxStage ++ [d], rxTrunc := false, rxState := .validating } } ∧
      exec (.rxTrunc d) s =
        .next { s with nxt := { s.nxt with rxStage := s.cur.rxStage ++ [d], rxTrunc := true, rxState := .validating } }) ∧
    (s.par.maxPayload + 6 ≤ s.cur.rxStage.length →
      exec (.rxData d) s = .next { s with nxt := { s.nxt with rxOversize := true } } ∧
      exec (.rxEnd d) s =
        .next { s with nxt := { s.nxt with rxOversize := true, rxTrunc := false, rxState := .validating } } ∧
      exec (.rxTrunc d) s =
        .next { s with nxt := { s.nxt with rxOversize := true, rxTrunc := true, rxState := .validating } })

/-- R230 with R228, R238: an in-order good frame joins the queue, after this tick's pop; its ACK is scheduled, or deferred when
the queue is then full. -/
def Obligations.AcceptDelivers : Prop :=
  ∀ (b0 b1 : Byte) (p : List Byte) (s : State), s.line.live = true → s.cur.rxState = .validating →
    s.cur.rxTrunc = false → s.cur.rxOversize = false →
    s.cur.rxStage = b0 :: b1 :: (p ++ be32 (crcOf s.par.crc (b0 :: b1 :: p))) →
    s.cur.nrs = b0.extractLsb' 0 4 ++ b1 →
    let q := s.nxt.rxq ++ [{ id := s.cur.nrs, payload := p }]
    let r := { s.nxt with nrs := s.cur.nrs + 1, nakScheduled := false, rxq := q, rxStage := [], rxTrunc := false,
                          rxOversize := false }
    (q.length = s.par.rxCap → exec .rxAccept s = .next { s with nxt := { r with rxState := .waitspace } }) ∧
    (q.length ≠ s.par.rxCap →
      exec .rxAccept s =
        .next { s with
          schedd := true
          nxt := { r with rxState := .idle, ctlPending := true, ctlPositive := true, ctlId := s.cur.nrs, ackTimer := 0 } })

/-- R231 with R228, R282: a good frame 1 to 2048 ids behind is dropped and the last accepted id acknowledged again. -/
def Obligations.DuplicateReacknowledged : Prop :=
  ∀ (b0 b1 : Byte) (p : List Byte) (s : State), s.line.live = true → s.cur.rxState = .validating →
    s.cur.rxTrunc = false → s.cur.rxOversize = false →
    s.cur.rxStage = b0 :: b1 :: (p ++ be32 (crcOf s.par.crc (b0 :: b1 :: p))) →
    1 ≤ (s.cur.nrs - (b0.extractLsb' 0 4 ++ b1)).toNat → (s.cur.nrs - (b0.extractLsb' 0 4 ++ b1)).toNat ≤ 2048 →
    exec .rxDup s =
      .next { s with
        schedd := true
        nxt := { s.nxt with ctlPending := true, ctlPositive := true, ctlId := s.cur.nrs - 1, ackTimer := 0, rxStage := [],
                            rxTrunc := false, rxOversize := false, rxState := .idle } }

/-- R232, R233 with R228, R280, R281: a good frame more than 2048 ids behind, and a frame that is malformed, truncated or does
not match its trailer, are dropped; a NAK for the last accepted id is scheduled unless one has been. -/
def Obligations.GapAndCorruptAnsweredByNak : Prop :=
  ∀ s : State, s.line.live = true → s.cur.rxState = .validating →
    let r := { s.nxt with rxStage := [], rxTrunc := false, rxOversize := false, rxState := .idle }
    let t : State :=
      if s.cur.nakScheduled = true then { s with nxt := r }
      else { s with
        schedd := true
        nxt := { r with ctlPending := true, ctlPositive := false, ctlId := s.cur.nrs - 1, ackTimer := 0,
                        nakScheduled := true } }
    (∀ (b0 b1 : Byte) (p : List Byte), s.cur.rxTrunc = false → s.cur.rxOversize = false →
      s.cur.rxStage = b0 :: b1 :: (p ++ be32 (crcOf s.par.crc (b0 :: b1 :: p))) →
      2048 < (s.cur.nrs - (b0.extractLsb' 0 4 ++ b1)).toNat → exec .rxGap s = .next t) ∧
    ((s.cur.rxStage.length < 6 ∨ s.cur.rxTrunc = true ∨ s.cur.rxOversize = true ∨
        ∃ (b0 b1 : Byte) (p : List Byte) (c : Crc), s.cur.rxStage = b0 :: b1 :: (p ++ be32 c) ∧
          c ≠ crcOf s.par.crc (b0 :: b1 :: p)) →
      exec .rxCorrupt s = .next t)

/-- R236: once the queue has room the deferred ACK is scheduled; while it has none nothing happens. -/
def Obligations.SpaceSendsDeferredAck : Prop :=
  ∀ s : State, s.line.live = true → s.cur.rxState = .waitspace →
    (s.cur.rxq.length < s.par.rxCap →
      exec .rxSpace s =
        .next { s with
          schedd := true
          nxt := { s.nxt with ctlPending := true, ctlPositive := true, ctlId := s.cur.nrs - 1, ackTimer := 0,
                              rxState := .idle } }) ∧
    (s.par.rxCap ≤ s.cur.rxq.length → exec .rxSpace s = .next s)

/-- R239: the pending message is offered and, when the channel is ready, handed over. -/
def Obligations.PendingMessageHandedOver : Prop :=
  ∀ s : State, s.line.live = true → s.cur.ctlPending = true →
    let o := { s.out with ctlTxValid := true, ctlTxPositive := s.cur.ctlPositive, ctlTxId := s.cur.ctlId }
    (s.line.ctlTxReady = false → exec (.ctlSend s.cur.ctlPositive s.cur.ctlId) s = .next { s with out := o }) ∧
    (s.line.ctlTxReady = true →
      exec (.ctlSend s.cur.ctlPositive s.cur.ctlId) s = .next { s with out := o, nxt := { s.nxt with ctlPending := false } })

/-- R241: when the ack timer reaches its limit and nothing was scheduled in the tick, the timer restarts, and an ACK for the
last accepted id is scheduled unless a message is pending. -/
def Obligations.KeepaliveAcknowledges : Prop :=
  ∀ s : State, s.line.live = true → s.schedd = false → s.cur.rxState ≠ .waitspace → s.par.ackLimit ≤ s.cur.ackTimer + 1 →
    (s.cur.ctlPending = true → exec .rxKeepalive s = .next { s with nxt := { s.nxt with ackTimer := 0 } }) ∧
    (s.cur.ctlPending = false →
      exec .rxKeepalive s =
        .next { s with nxt :=
          { s.nxt with ackTimer := 0, ctlPending := true, ctlPositive := true, ctlId := s.cur.nrs - 1 } })

/-- R243, RXQ.POP: the head is removed; with an empty queue nothing happens. -/
def Obligations.PopRemovesHead : Prop :=
  ∀ s : State, s.line.live = true →
    (∀ (e : RxEntry) (rest : List RxEntry), s.cur.rxq = e :: rest →
      exec .rxqPop s = .next { s with nxt := { s.nxt with rxq := rest } }) ∧
    (s.cur.rxq = [] → exec .rxqPop s = .next s)

/-! ### The synchronizer -/

/-- R262, LINK.DOWN: every register takes its reset value (a slot is free; R50 leaves its id and bytes unspecified) and every
output is 0. -/
def Obligations.LinkDownResets : Prop :=
  ∀ (rst up : Bool) (s : State), (rst = true ∨ up = false) →
    ∃ sl : List Slot, sl.length = s.par.nSlots ∧ (∀ x ∈ sl, x.occ = false) ∧
      exec (.linkDown rst up) s = .next { s with nxt := { Regs.reset s.par with slots := sl }, out := PortOut.zero }

/-- R267, STATUS: the status outputs show start-of-tick values. -/
def Obligations.StatusShowsStartOfTick : Prop :=
  ∀ s : State, s.line.live = true →
    exec .status s =
      .next { s with out :=
        { s.out with
            stTxSeq := s.cur.nts, stRxSeq := s.cur.nrs
            stRbCount := (s.cur.slots.filter fun sl => sl.occ).length
            stRxqCount := s.cur.rxq.length, stReplayCount := s.cur.replayCount
            stRbFull := decide ((s.cur.slots.filter fun sl => sl.occ).length = s.par.nSlots)
            stRbEmpty := decide ((s.cur.slots.filter fun sl => sl.occ).length = 0) } }

/-! ### Every operation -/

/-- The model's reading of R103 and R262 (log entry 12): an operation whose condition does not hold changes nothing, and with
the link down only the pure functions and LINK.DOWN do anything. -/
def Obligations.NothingOutsideItsCondition : Prop :=
  ∀ (i : Instr) (s : State),
    (s.line.live = true → s.selects i = false → exec i s = .next s) ∧
    (s.line.live = false → anyTick i = false → exec i s = .next s)

/-- R60, R44: no operation writes a start-of-tick register, a parameter or an input; every one answers a next state. -/
def Obligations.OperationsKeepStartOfTick : Prop :=
  ∀ (i : Instr) (s : State), ∃ t, exec i s = .next t ∧ t.cur = s.cur ∧ t.par = s.par ∧ t.inputs = s.inputs

/-! ### The tick -/

/-- A step runs the operations of the tick one after the other, then the requests they raised, then the expiries, the timers and
the commit.  With the link up the operations are, and nothing else is: STATUS, the ones that the words on the ports decode to,
and the ones that the registers alone select, under their conditions of spec/opcode_table.json (R48 (f) as a premise, as log entry
14 reads `rp_busy = 1` outside RC_REPLAYING otherwise than R151); with the link down, LINK.DOWN alone.  The order of the list is the
model's (log entry 16), and that `rp_id` is the word on the query port is its choice (log entry 15): no rule says which id is asked
for. -/
def Obligations.StepRunsDecodedWord : Prop :=
  (∀ (s : State) (i : Instr), s.par.wf = true → s.line.live = true →
    ((∃ before after, s.beginTick.selected = before ++ i :: after) ↔
      i = .status ∨ i ∈ s.framerOps ∨ i ∈ s.replayOps ∨ i ∈ s.rxOps ∨
        ∃ pw, (pw ∈ [.up s.line.uw, .beat s.line.bw, .ctl s.line.cw, .pop (BitVec.ofBool s.line.rxqPop), .query s.cur.rpId,
                     .ctlOut (ctlWord s.cur.ctlPending s.cur.ctlPositive s.cur.ctlId)] ∨
                (s.cur.rxState = .validating ∧ pw = .vc s.rxClass.code)) ∧
              decode s.decodeCtx pw = .instr i) ∧
    ∀ before after, s.beginTick.selected = before ++ i :: after →
      step s = andThen (runAll before s.beginTick) fun t => andThen (exec i t) fun u => andThen (runAll after u) fun v =>
        andThen (runAll v.requested v) fun w => andThen (runAll w.expired w) fun x => .next x.clockTimers.endTick) ∧
  (∀ (s : State) (i : Instr), s.cur.busyInPass →
    i ∈ [.txHdr1, .txCrc, .txAbort, .txComplete, .rbSend .beat, .txReplayEnter, .txReplayDrop, .txReplayExit,
         .txReplayPassend, .txReplaySend, .txReplayAgain, .txReplaySkip, .txReplayNext, .rxSpace] →
    (i ∈ s.framerOps ∨ i ∈ s.replayOps ∨ i ∈ s.rxOps ↔ s.selects i = true)) ∧
  (∀ (s : State) (i : Instr), s.par.wf = true →
    decode s.decodeCtx (.link (linkWord s.line.rst s.line.linkUp)) = .instr i →
    step s = andThen (exec i s.beginTick) fun t => .next t.endTick) ∧
  (∀ (v : State) (i : Instr), i ∈ v.requested ↔
    ∃ pw ∈ [.delA v.req.delA, .delB v.req.delB, .store v.req.store v.req.storeBytes, .send v.req.send],
      decode v.decodeCtx pw = .instr i) ∧
  (∀ (w : State) (i : Instr), i ∈ w.expired ↔
    w.line.live = true ∧ ((i = .txTimeout ∧ w.replayExpires = true) ∨ (i = .rxKeepalive ∧ w.ackExpires = true)))

/-- R330, R104, R287: whatever the registers and the inputs are, a tick of a block built within R7 has a next state; it uses up
one line of inputs and keeps the parameters (R44).  A block built outside R7 is refused (log entry 13). -/
def Obligations.EveryTickHasANextState : Prop :=
  ∀ s : State,
    (s.par.wf = true → ∃ t, step s = .next t ∧ t.par = s.par ∧ t.inputs = s.inputs.tail) ∧
    (s.par.wf = false → step s = .refused .parametersOutOfRange)

/-- R262, R263, first sentence: a tick with the link down or `rst` ends in the reset state, whatever the state and the other
inputs are, and every output of it is 0. -/
def Obligations.LinkDownTickResets : Prop :=
  ∀ s : State, s.par.wf = true → (s.line.linkUp = false ∨ s.line.rst = true) →
    ∃ t, step s = .next t ∧ t.out = PortOut.zero ∧ t.cur = { Regs.reset s.par with slots := t.cur.slots } ∧
      t.cur.slots.length = s.par.nSlots ∧ ∀ x ∈ t.cur.slots, x.occ = false

/-- R49 and the column reset of R20, register by register, for every build. -/
def Obligations.ResetValues : Prop :=
  (∃ p lines, State.reset = State.resetWith p lines) ∧
  ∀ (p : Params) (lines : List Line),
    let r := (State.resetWith p lines).cur
    r.nts = 0 ∧ r.lastAcked = 4095 ∧ r.unacked = [] ∧ r.replayTimer = 0 ∧ r.replayCount = 0 ∧ r.rcState = .idle ∧
    r.replayReq = false ∧ r.frState = .idle ∧ r.txStage = [] ∧ r.txCrc = 0 ∧ r.txNull = false ∧ r.rpPass = false ∧
    r.rpId = 0 ∧ r.rpBusy = false ∧ r.rpBytes = [] ∧ r.rpPos = 0 ∧ r.slots.length = p.nSlots ∧
    (∀ sl ∈ r.slots, sl.occ = false) ∧ r.nrs = 0 ∧ r.rxState = .idle ∧ r.rxStage = [] ∧ r.rxTrunc = false ∧
    r.rxOversize = false ∧ r.nakScheduled = false ∧ r.ackTimer = 0 ∧ r.ctlPending = false ∧ r.ctlPositive = false ∧
    r.ctlId = 0 ∧ r.rxq = []

/-- R210: `replay_timer` after a tick, `unacked'` being `unacked` after it. -/
def Obligations.ReplayTimerAfterTick : Prop :=
  ∀ s t : State, s.line.live = true → step s = .next t →
    t.cur.replayTimer =
      if t.cur.unacked = [] ∨ s.ackEffective = true ∨ s.passLive = true ∨ s.passStart = true then 0
      else if s.cur.unacked = [] then 0
      else if s.par.replayLimit ≤ s.cur.replayTimer + 1 then 0
      else s.cur.replayTimer + 1

/-- R211: `replay_req` after a tick. -/
def Obligations.ReplayRequestAfterTick : Prop :=
  ∀ s t : State, s.line.live = true → step s = .next t →
    let nakSet := ctlWordValid s.line.cw && !ctlWordPositive s.line.cw && !s.passLive && !s.passStart
    let expSet := !(t.cur.unacked.isEmpty || s.ackEffective || s.passLive || s.passStart) && !s.cur.unacked.isEmpty &&
      decide (s.par.replayLimit ≤ s.cur.replayTimer + 1)
    t.cur.replayReq = if s.passStart then false else (s.cur.replayReq && !s.reqDrop) || nakSet || expSet

/-- R212, R21, R22: the removal of an effective ACK, then the append of a completion; `nts` and `last_acked`.
That an ACK for an id that stands in `unacked` twice, which no run reaches, releases up to the first is the model's choice (log entry
17), not R205's. -/
def Obligations.WindowAfterTick : Prop :=
  ∀ s t : State, s.line.live = true → step s = .next t →
    let x := ctlWordId s.line.cw
    let kept := if s.ackEffective then s.cur.unacked.drop (s.cur.unacked.idxOf x + 1) else s.cur.unacked
    t.cur.unacked = (if s.completes then kept ++ [s.cur.nts] else kept) ∧
    t.cur.nts = (if s.completes then s.cur.nts + 1 else s.cur.nts) ∧
    t.cur.lastAcked = (if s.ackEffective then x else s.cur.lastAcked)

/-- R148 with R205, R180, R141, in a state that keeps the invariants: the acknowledged slots are freed, the completed frame
goes into the lowest slot that was free at the start of the tick, every other slot is as it was. -/
def Obligations.SlotsAfterTick : Prop :=
  ∀ s t : State, s.Inv → s.line.live = true → step s = .next t →
    t.cur.slots.length = s.cur.slots.length ∧
    ∀ (k : Nat) (sl : Slot), s.cur.slots[k]? = some sl →
      (sl.occ = true →
        t.cur.slots[k]? =
          some (if s.ackEffective = true ∧
                   sl.id ∈ s.cur.unacked.take (s.cur.unacked.idxOf (ctlWordId s.line.cw) + 1)
                then { sl with occ := false } else sl)) ∧
      (sl.occ = false →
        t.cur.slots[k]? =
          some (if s.completes = true ∧ ∀ c ∈ s.cur.slots.take k, c.occ = true
                then { occ := true, id := s.cur.nts, bytes := s.cur.txStage ++ be32 s.cur.txCrc } else sl))

/-- R238, R239, R241: the pending-control register after a tick: the hand-over, then the newest message of the tick. -/
def Obligations.PendingControlAfterTick : Prop :=
  ∀ s t : State, s.line.live = true → step s = .next t →
    (∀ (positive : Bool) (i : Seq), s.scheduledNow = some (positive, i) →
      t.cur.ctlPending = true ∧ t.cur.ctlPositive = positive ∧ t.cur.ctlId = i) ∧
    (s.keepsAlive = true → s.cur.ctlPending = false →
      t.cur.ctlPending = true ∧ t.cur.ctlPositive = true ∧ t.cur.ctlId = s.cur.nrs - 1) ∧
    (s.scheduledNow = none → (s.keepsAlive = false ∨ s.cur.ctlPending = true) →
      t.cur.ctlPending = (s.cur.ctlPending && !s.line.ctlTxReady) ∧ t.cur.ctlPositive = s.cur.ctlPositive ∧
      t.cur.ctlId = s.cur.ctlId)

/-- R240: `ack_timer` after a tick. -/
def Obligations.AckTimerAfterTick : Prop :=
  ∀ s t : State, s.line.live = true → step s = .next t →
    t.cur.ackTimer =
      if s.scheduledNow.isSome then 0
      else if s.cur.rxState = .waitspace then 0
      else if s.par.ackLimit ≤ s.cur.ackTimer + 1 then 0
      else s.cur.ackTimer + 1

/-- R244, R23, R33: the receive queue after a tick, first the pop, then the append; `nrs` and `nak_scheduled`. -/
def Obligations.ReceiveQueueAfterTick : Prop :=
  ∀ s t : State, s.line.live = true → step s = .next t →
    let accepted := s.cur.rxState == .validating && s.rxClass == .accept
    let nakked := s.cur.rxState == .validating && (s.rxClass == .gap || s.rxClass == .corrupt)
    let q := if s.line.rxqPop then s.cur.rxq.tail else s.cur.rxq
    t.cur.rxq = (if accepted then q ++ [{ id := rxId s.cur.rxStage, payload := rxPayload s.cur.rxStage }] else q) ∧
    t.cur.nrs = (if accepted then s.cur.nrs + 1 else s.cur.nrs) ∧
    t.cur.nakScheduled = (if accepted then false else s.cur.nakScheduled || nakked)

/-- R184: all moves of `fr_state`. -/
def Obligations.FramerMoves : Prop :=
  ∀ s t : State, step s = .next t →
    (s.line.live = false → t.cur.frState = .idle) ∧
    (s.line.live = true → s.cur.rcState = .replaying → t.cur.frState = s.cur.frState) ∧
    (s.line.live = true → s.cur.rcState = .idle →
      (s.cur.frState = .idle → t.cur.frState = if s.canStart ∧ s.line.txReady then .hdr1 else .idle) ∧
      (s.cur.frState = .hdr1 → t.cur.frState = if s.line.txReady then .payload else .hdr1) ∧
      (s.cur.frState = .payload →
        t.cur.frState =
          if upWordValid s.line.uw = false then .crc0
          else if s.line.txReady ∧ (upWordLast s.line.uw ∨ s.cur.txStage.length + 1 = s.par.maxPayload + 2) then .crc0
          else .payload) ∧
      (s.cur.frState = .crc0 → t.cur.frState = if s.line.txReady then .crc1 else .crc0) ∧
      (s.cur.frState = .crc1 → t.cur.frState = if s.line.txReady then .crc2 else .crc1) ∧
      (s.cur.frState = .crc2 → t.cur.frState = if s.line.txReady then .crc3 else .crc2) ∧
      (s.cur.frState = .crc3 → t.cur.frState = if s.line.txReady then .idle else .crc3))

/-- R201, R213 and the pass registers of R192 to R199: `rc_state`, `replay_count`, `rp_pass`, `rp_id` after a tick.  That the
cursor moves after a beat only in RC_REPLAYING (`sent`), where R199 asks for `rp_busy = 1` alone, is the model's reading of R200
(log entry 14); the two differ in states that no run reaches. -/
def Obligations.ReplayMoves : Prop :=
  ∀ s t : State, step s = .next t →
    (s.line.live = false → t.cur.rcState = .idle ∧ t.cur.replayCount = 0) ∧
    (s.line.live = true →
      let exits := s.cur.rcState == .replaying && !s.cur.rpBusy && s.rbCount == 0
      let ends := s.cur.rcState == .replaying && !s.cur.rpBusy && s.cur.rpPass && s.cur.rpId == s.cur.nts
      let sent := s.cur.rcState == .replaying && s.cur.rpBusy && s.cur.rpPos + 1 == s.cur.rpBytes.length && s.line.txReady
      let skips := s.cur.rcState == .replaying && !s.cur.rpBusy && s.rbCount != 0 && s.cur.rpPass &&
        s.cur.rpId != s.cur.nts && !(s.cur.slots.any fun sl => sl.occ && sl.id == s.cur.rpId)
      t.cur.rcState = (if s.cur.rcState = .idle ∧ s.passStart then .replaying else if exits then .idle else s.cur.rcState) ∧
      t.cur.replayCount = (if s.passStart then s.cur.replayCount + 1 else s.cur.replayCount) ∧
      t.cur.rpPass = (if s.passStart then true else if exits || ends then false else s.cur.rpPass) ∧
      t.cur.rpId = (if s.passStart then s.head else if sent || skips then s.cur.rpId + 1 else s.cur.rpId))

/-- R234: all moves of `rx_state`. -/
def Obligations.ReceiverMoves : Prop :=
  ∀ s t : State, step s = .next t →
    (s.line.live = false → t.cur.rxState = .idle) ∧
    (s.line.live = true →
      let w := s.line.bw
      let q := if s.line.rxqPop then s.cur.rxq.tail else s.cur.rxq
      (s.cur.rxState = .idle →
        t.cur.rxState =
          if beatWordValid w ∧ beatWordSof w then (if beatWordEof w then .validating else .receiving) else .idle) ∧
      (s.cur.rxState = .receiving →
        t.cur.rxState = if beatWordValid w ∧ beatWordEof w then .validating else .receiving) ∧
      (s.cur.rxState = .validating →
        t.cur.rxState = if s.rxClass = .accept ∧ q.length + 1 = s.par.rxCap then .waitspace else .idle) ∧
      (s.cur.rxState = .waitspace → t.cur.rxState = if s.cur.rxq.length < s.par.rxCap then .idle else .waitspace))

/-- R171: the transmit stream and `up_ready`, for every state. -/
def Obligations.StreamOutputs : Prop :=
  ∀ s t : State, s.line.live = true → step s = .next t →
    let stream := (t.out.txValid, t.out.txData, t.out.txSof, t.out.txEof, t.out.txBad, t.out.upReady)
    let c := s.cur.txCrc
    (s.cur.rcState = .idle →
      (s.cur.frState = .idle →
        stream =
          if s.canStart then (true, (0 : BitVec 4) ++ s.cur.nts.extractLsb' 8 4, true, false, false, false)
          else (false, 0, false, false, false, false)) ∧
      (s.cur.frState = .hdr1 → stream = (true, s.cur.nts.extractLsb' 0 8, false, false, false, false)) ∧
      (s.cur.frState = .payload →
        stream =
          (upWordValid s.line.uw, if upWordValid s.line.uw then upWordData s.line.uw else 0, false, false, false,
            s.line.txReady)) ∧
      (s.cur.frState = .crc0 → stream = (true, c.extractLsb' 24 8, false, false, false, false)) ∧
      (s.cur.frState = .crc1 → stream = (true, c.extractLsb' 16 8, false, false, false, false)) ∧
      (s.cur.frState = .crc2 → stream = (true, c.extractLsb' 8 8, false, false, false, false)) ∧
      (s.cur.frState = .crc3 → stream = (true, c.extractLsb' 0 8, false, true, s.cur.txNull, false))) ∧
    (s.cur.rcState = .replaying →
      (∀ b, s.cur.rpBusy = true → s.cur.rpBytes[s.cur.rpPos]? = some b →
        stream =
          (true, b, decide (s.cur.rpPos = 0), decide (s.cur.rpPos = s.cur.rpBytes.length - 1), false, false)) ∧
      (s.cur.rpBusy = false → stream = (false, 0, false, false, false, false)))

/-- R220, R239, R243, R265, R267: the other outputs of a tick. -/
def Obligations.OtherOutputs : Prop :=
  ∀ s t : State, step s = .next t →
    t.out.dlUp = (s.line.linkUp && !s.line.rst) ∧
    (s.line.live = true →
      t.out.rxReady = decide (s.cur.rxState = .idle ∨ s.cur.rxState = .receiving) ∧
      t.out.ctlTxValid = s.cur.ctlPending ∧ t.out.ctlTxPositive = (s.cur.ctlPending && s.cur.ctlPositive) ∧
      t.out.ctlTxId = (if s.cur.ctlPending then s.cur.ctlId else 0) ∧
      (s.cur.rxq = [] → t.out.rxqValid = false ∧ t.out.rxqId = 0 ∧ t.out.rxqBytes = []) ∧
      (∀ e rest, s.cur.rxq = e :: rest → t.out.rxqValid = true ∧ t.out.rxqId = e.id ∧ t.out.rxqBytes = e.payload) ∧
      t.out.stTxSeq = s.cur.nts ∧ t.out.stRxSeq = s.cur.nrs ∧
      t.out.stRbCount = (s.cur.slots.filter fun sl => sl.occ).length ∧ t.out.stRxqCount = s.cur.rxq.length ∧
      t.out.stReplayCount = s.cur.replayCount ∧
      t.out.stRbFull = decide ((s.cur.slots.filter fun sl => sl.occ).length = s.par.nSlots) ∧
      t.out.stRbEmpty = decide ((s.cur.slots.filter fun sl => sl.occ).length = 0))

/-- R228: the class of the frame under validation, for every frame; and R8, R182: a nullified frame is Corrupt whatever CRC
is. -/
def Obligations.Classification : Prop :=
  (∀ s : State, (s.cur.rxStage.length < 6 ∨ s.cur.rxTrunc = true ∨ s.cur.rxOversize = true) → s.rxClass = .corrupt) ∧
  (∀ (b0 b1 : Byte) (p : List Byte) (c : Crc) (s : State), s.cur.rxStage = b0 :: b1 :: (p ++ be32 c) →
    s.cur.rxTrunc = false → s.cur.rxOversize = false →
    let id : Seq := b0.extractLsb' 0 4 ++ b1
    s.rxClass =
      if crcOf s.par.crc (b0 :: b1 :: p) ≠ c then .corrupt
      else if id = s.cur.nrs then .accept
      else if (s.cur.nrs - id).toNat ≤ 2048 then .duplicate
      else .gap) ∧
  (∀ (i : Seq) (p : List Byte) (s : State),
    s.cur.rxStage = frameBytes i p (~~~ crcOf s.par.crc (header i ++ p)) → s.rxClass = .corrupt)

/-! ### The whole machine -/

/-- R45: what the receive engine's registers become depends on them and on its own ports alone, and the same of the transmit
side and its ports: neither side can see or change the other. -/
def Obligations.EnginesOwnDisjointState : Prop :=
  (∀ s s' t t' : State, s.par = s'.par → s.cur.sameReceive s'.cur → s.line.sameReceive s'.line →
    step s = .next t → step s' = .next t' → t.cur.sameReceive t'.cur) ∧
  (∀ s s' t t' : State, s.par = s'.par → s.cur.sameTransmit s'.cur → s.line.sameTransmit s'.line →
    step s = .next t → step s' = .next t' → t.cur.sameTransmit t'.cur)

/-- The invariant holds in the reset state of every build within R7. -/
def Obligations.InvAtReset : Prop :=
  ∀ (p : Params) (lines : List Line), p.wf = true → (State.resetWith p lines).Inv

/-- Every tick keeps the invariant, from every state that has it, whatever its inputs. -/
def Obligations.InvKeptByStep : Prop :=
  ∀ s t : State, s.Inv → step s = .next t → t.Inv

/-- R48: its six invariants hold after any number of ticks from reset, for every build within R7 and every input. -/
def Obligations.InvariantsHoldAlways : Prop :=
  ∀ (n : Nat) (p : Params) (lines : List Line) (t : State), p.wf = true → ticks n (State.resetWith p lines) = .next t →
    t.cur.Consistent p

/-- R50: two states that differ in unspecified values only have the same outputs in the tick, and differ in unspecified values
only after it. -/
def Obligations.UnspecifiedValuesInvisible : Prop :=
  ∀ s s' t t' : State, s.Inv → s'.Inv → s.par = s'.par → s.line = s'.line → s.cur.seen = s'.cur.seen →
    step s = .next t → step s' = .next t' → t.out = t'.out ∧ t.cur.seen = t'.cur.seen

/-! ### Encoding -/

/-- Decoding the word of a well-formed operation, in registers that meet its condition, gives the operation back, with every
operand. -/
def Obligations.DecodeInvertsEncode : Prop :=
  ∀ (p : Params) (c : DecodeCtx) (i : Instr) (pw : PortWord), i.wf p = true → c.admits i = true → encode i = some pw →
    decode c pw = .instr i

/-- Words written out from the tables of R91, R93, R95, R101, R102, R262. -/
def Obligations.WrittenWordsDecode : Prop :=
  let c : DecodeCtx := { up := .payload false, rx := .idle, unacked := [5], passBusy := false }
  decode c (.ctl 0b11000000000101#14) = .instr (.txAck 5) ∧
  decode c (.ctl 0b11000000000110#14) = .instr (.txAckIgnored 6) ∧
  decode c (.ctl 0b10111111111111#14) = .instr (.txNak 4095) ∧
  decode c (.ctl 0b01000000000101#14) = .rejected .portIdle ∧
  decode c (.beat 0b110000001111#12) = .instr (.rxStart false false 0x0f) ∧
  decode { c with rx := .receiving } (.beat 0b101101010101#12) = .instr (.rxTrunc 0x55) ∧
  decode c (.up 0b1110101010#10) = .instr (.txData true 0xaa) ∧
  decode { c with up := .payload true } (.up 0b1010101010#10) = .instr (.txOverlen 0xaa) ∧
  decode c (.up 0b0100000000#10) = .instr .txNullify ∧
  decode c (.delA 0b1000000000001000000000011#25) = .instr (.rbDelete (.portA 1 3)) ∧
  decode c (.store 0b1000000000111#13 zeroFrame) = .instr (.rbStore 7 zeroFrame) ∧
  decode c (.vc 0b10#2) = .instr .rxGap ∧
  decode c (.link 0b00#2) = .instr (.linkDown false false) ∧
  decode c (.link 0b01#2) = .rejected .linkIsUp
end

