-- ==== Sys2Proof/Laws/Words.lean ====
section
/-! SUPPORT. The fields of an interface word are what the word was built from, so that no later proof unfolds a word. -/

namespace Sys2Proof

/-! ### Parts of a concatenation -/

theorem append_low {n m : Nat} (x : BitVec n) (y : BitVec m) : (x ++ y).extractLsb' 0 m = y := by
  apply BitVec.eq_of_getLsbD_eq
  intro k hk
  simp [BitVec.getLsbD_append, hk]

theorem append_bit {n m : Nat} (x : BitVec n) (y : BitVec m) (k : Nat) : (x ++ y).getLsbD (m + k) = x.getLsbD k := by
  simp [BitVec.getLsbD_append]

theorem append_mid {n m : Nat} (x : BitVec n) (y : BitVec m) (len : Nat) :
    (x ++ y).extractLsb' m len = x.extractLsb' 0 len := by
  apply BitVec.eq_of_getLsbD_eq
  intro k hk
  simp [BitVec.getLsbD_append, hk]

theorem ofBool_bit (b : Bool) : (BitVec.ofBool b).getLsbD 0 = b := by cases b <;> rfl

/-! ### The control word -/

@[simp] theorem ctlWordId_ctlWord (v p : Bool) (i : Seq) : ctlWordId (ctlWord v p i) = i := append_low _ i

@[simp] theorem ctlWordPositive_ctlWord (v p : Bool) (i : Seq) : ctlWordPositive (ctlWord v p i) = p :=
  (append_bit _ i 0).trans ((BitVec.getLsbD_append (i := 0)).trans (ofBool_bit p))

@[simp] theorem ctlWordValid_ctlWord (v p : Bool) (i : Seq) : ctlWordValid (ctlWord v p i) = v :=
  (append_bit _ i 1).trans ((append_bit _ (BitVec.ofBool p) 0).trans (ofBool_bit v))

/-! ### The beat word -/

@[simp] theorem beatWordData_beatWord (v s e b : Bool) (d : Byte) : beatWordData (beatWord v s e b d) = d :=
  append_low _ d

@[simp] theorem beatWordBad_beatWord (v s e b : Bool) (d : Byte) : beatWordBad (beatWord v s e b d) = b :=
  (append_bit _ d 0).trans (by cases v <;> cases s <;> cases e <;> cases b <;> rfl)

@[simp] theorem beatWordEof_beatWord (v s e b : Bool) (d : Byte) : beatWordEof (beatWord v s e b d) = e :=
  (append_bit _ d 1).trans (by cases v <;> cases s <;> cases e <;> cases b <;> rfl)

@[simp] theorem beatWordSof_beatWord (v s e b : Bool) (d : Byte) : beatWordSof (beatWord v s e b d) = s :=
  (append_bit _ d 2).trans (by cases v <;> cases s <;> cases e <;> cases b <;> rfl)

@[simp] theorem beatWordValid_beatWord (v s e b : Bool) (d : Byte) : beatWordValid (beatWord v s e b d) = v :=
  (append_bit _ d 3).trans (by cases v <;> cases s <;> cases e <;> cases b <;> rfl)

/-! ### The upper layer's word -/

@[simp] theorem upWordData_upWord (v l : Bool) (d : Byte) : upWordData (upWord v l d) = d := append_low _ d

@[simp] theorem upWordLast_upWord (v l : Bool) (d : Byte) : upWordLast (upWord v l d) = l :=
  (append_bit _ d 0).trans (by cases v <;> cases l <;> rfl)

@[simp] theorem upWordValid_upWord (v l : Bool) (d : Byte) : upWordValid (upWord v l d) = v :=
  (append_bit _ d 1).trans (by cases v <;> cases l <;> rfl)

/-! ### The retry buffer's request words -/

@[simp] theorem reqWordId_reqWord (v : Bool) (i : Seq) : reqWordId (reqWord v i) = i := append_low _ i

@[simp] theorem reqWordValid_reqWord (v : Bool) (i : Seq) : reqWordValid (reqWord v i) = v :=
  (append_bit _ i 0).trans (ofBool_bit v)

@[simp] theorem rangeWordHi_rangeWord (v : Bool) (lo hi : Seq) : rangeWordHi (rangeWord v lo hi) = hi := append_low _ hi

@[simp] theorem rangeWordLo_rangeWord (v : Bool) (lo hi : Seq) : rangeWordLo (rangeWord v lo hi) = lo :=
  (append_mid _ hi 12).trans (append_low _ lo)

@[simp] theorem rangeWordValid_rangeWord (v : Bool) (lo hi : Seq) : rangeWordValid (rangeWord v lo hi) = v :=
  (append_bit _ hi 12).trans ((append_bit _ lo 0).trans (ofBool_bit v))

/-- An idle request port selects nothing. -/
@[simp] theorem reqWordValid_zero : reqWordValid 0 = false := rfl

@[simp] theorem rangeWordValid_zero : rangeWordValid 0 = false := rfl

/-! ### The link word, the class code, the state codes -/

@[simp] theorem linkWordRst_linkWord (r u : Bool) : linkWordRst (linkWord r u) = r := by
  cases r <;> cases u <;> rfl

@[simp] theorem linkWordUp_linkWord (r u : Bool) : linkWordUp (linkWord r u) = u := by
  cases r <;> cases u <;> rfl

@[simp] theorem ofCode_code (c : VClass) : VClass.ofCode c.code = c := by cases c <;> rfl

/-- The codes of R29 to R31 tell the states apart. -/
theorem rcCode_injective (a b : RcState) (h : a.code = b.code) : a = b := by
  cases a <;> cases b <;> first | rfl | exact absurd h (by decide)

theorem frCode_injective (a b : FrState) (h : a.code = b.code) : a = b := by
  cases a <;> cases b <;> first | rfl | exact absurd h (by decide)

theorem rxCode_injective (a b : RxState) (h : a.code = b.code) : a = b := by
  cases a <;> cases b <;> first | rfl | exact absurd h (by decide)

end Sys2Proof
end

