-- ==== Sys2Proof/Laws/Frames.lean ====
section
/-! SUPPORT. The fields of a frame are what the frame was built from (spec/30_encoding.md R96, R97), and the slots by id. -/

namespace Sys2Proof.Machine

@[simp] theorem be32_length (v : Crc) : (be32 v).length = 4 := rfl

@[simp] theorem header_length (i : Seq) : (header i).length = 2 := rfl

/-- `unbe32` is the inverse of `be32` (R10). -/
@[simp] theorem unbe32_be32 (v : Crc) : unbe32 (be32 v) = v := by
  apply BitVec.eq_of_getLsbD_eq
  intro k hk
  simp only [unbe32, be32, List.getD_cons_zero, List.getD_cons_succ]
  rw [BitVec.getLsbD_append, BitVec.getLsbD_append, BitVec.getLsbD_append]
  simp only [BitVec.getLsbD_extractLsb']
  by_cases h0 : k < 8
  · simp [h0]
  · by_cases h1 : k - 8 < 8
    · simp [h0, h1, show 8 + (k - 8) = k by omega]
    · by_cases h2 : k - 8 - 8 < 8
      · simp [h0, h1, h2, show 16 + (k - 8 - 8) = k by omega]
      · simp [h0, h1, h2, show k - 8 - 8 - 8 < 8 by omega, show 24 + (k - 8 - 8 - 8) = k by omega]

@[simp] theorem frameBytes_length (i : Seq) (p : List Byte) (c : Crc) : (frameBytes i p c).length = p.length + 6 := by
  simp [frameBytes]; omega

/-- R97 applied to R96: the id. -/
@[simp] theorem rxId_frameBytes (i : Seq) (p : List Byte) (c : Crc) : rxId (frameBytes i p c) = i := by
  apply BitVec.eq_of_getLsbD_eq
  intro k hk
  simp only [rxId, frameBytes, header, List.cons_append, List.nil_append, List.getD_cons_zero, List.getD_cons_succ]
  rw [BitVec.getLsbD_append]
  by_cases h : k < 8
  · simp [h, hdrByte1]
  · simp only [h, if_false, BitVec.getLsbD_extractLsb', hdrByte0]
    rw [BitVec.getLsbD_append]
    simp [show k - 8 < 4 by omega, show 8 + (k - 8) = k by omega]

theorem frame_cut (i : Seq) (p : List Byte) (c : Crc) :
    frameBytes i p c = (header i ++ p) ++ be32 c ∧ (frameBytes i p c).length - 4 = (header i ++ p).length := by
  constructor
  · simp [frameBytes]
  · simp; omega

/-- R97 applied to R96: the covered part. -/
@[simp] theorem rxCovered_frameBytes (i : Seq) (p : List Byte) (c : Crc) :
    rxCovered (frameBytes i p c) = header i ++ p := by
  rw [rxCovered, (frame_cut i p c).2, (frame_cut i p c).1, List.take_left]

/-- R97 applied to R96: the trailer. -/
@[simp] theorem rxTrailer_frameBytes (i : Seq) (p : List Byte) (c : Crc) : rxTrailer (frameBytes i p c) = c := by
  rw [rxTrailer, (frame_cut i p c).2, (frame_cut i p c).1, List.drop_left, unbe32_be32]

/-- R97 applied to R96: the payload. -/
@[simp] theorem rxPayload_frameBytes (i : Seq) (p : List Byte) (c : Crc) : rxPayload (frameBytes i p c) = p := by
  have h := rxCovered_frameBytes i p c
  rw [rxCovered] at h
  rw [rxPayload, h]
  simp [header]

/-- A lookup that answers names an occupied slot that holds the id (R70). -/
theorem find_some (slots : List Slot) (i : Seq) (k : Nat) (h : find slots i = some k) :
    ∃ sl, slots[k]? = some sl ∧ sl.occ = true ∧ sl.id = i := by
  rw [find, List.findIdx?_eq_some_iff_getElem] at h
  obtain ⟨hk, hp, -⟩ := h
  refine ⟨slots[k], by simp [hk], ?_⟩
  simpa using hp

/-- A lookup that answers nothing: no occupied slot holds the id (R70). -/
theorem find_none (slots : List Slot) (i : Seq) (h : find slots i = none) (sl : Slot) (hm : sl ∈ slots) (ho : sl.occ = true) :
    sl.id ≠ i := by
  rw [find, List.findIdx?_eq_none_iff] at h
  have := h sl hm
  simpa [ho] using this

/-- The slot a store takes is free, and every slot before it is occupied (R69). -/
theorem firstFree_some (slots : List Slot) (k : Nat) (h : firstFree slots = some k) :
    (∃ sl, slots[k]? = some sl ∧ sl.occ = false) ∧
      ∀ j, j < k → ∃ sl, slots[j]? = some sl ∧ sl.occ = true := by
  rw [firstFree, List.findIdx?_eq_some_iff_getElem] at h
  obtain ⟨hk, hp, hq⟩ := h
  refine ⟨⟨slots[k], by simp [hk], by simpa using hp⟩, fun j hj => ?_⟩
  have hj' : j < slots.length := by omega
  exact ⟨slots[j], by simp [hj'], by simpa using hq j hj⟩

end Sys2Proof.Machine
end

