-- ==== Sys2Proof/Laws/State.lean ====
section
/-! SUPPORT. What each named update of the state does to each field: one lemma per field per update. -/

namespace Sys2Proof.Machine

@[simp] theorem write_par (s : State) (f : Regs → Regs) : (s.write f).par = s.par := rfl
@[simp] theorem write_cur (s : State) (f : Regs → Regs) : (s.write f).cur = s.cur := rfl
@[simp] theorem write_nxt (s : State) (f : Regs → Regs) : (s.write f).nxt = f s.nxt := rfl
@[simp] theorem write_req (s : State) (f : Regs → Regs) : (s.write f).req = s.req := rfl
@[simp] theorem write_dels (s : State) (f : Regs → Regs) : (s.write f).dels = s.dels := rfl
@[simp] theorem write_schedd (s : State) (f : Regs → Regs) : (s.write f).schedd = s.schedd := rfl
@[simp] theorem write_ans (s : State) (f : Regs → Regs) : (s.write f).ans = s.ans := rfl
@[simp] theorem write_out (s : State) (f : Regs → Regs) : (s.write f).out = s.out := rfl
@[simp] theorem write_inputs (s : State) (f : Regs → Regs) : (s.write f).inputs = s.inputs := rfl
@[simp] theorem write_line (s : State) (f : Regs → Regs) : (s.write f).line = s.line := rfl

@[simp] theorem drive_par (s : State) (f : PortOut → PortOut) : (s.drive f).par = s.par := rfl
@[simp] theorem drive_cur (s : State) (f : PortOut → PortOut) : (s.drive f).cur = s.cur := rfl
@[simp] theorem drive_nxt (s : State) (f : PortOut → PortOut) : (s.drive f).nxt = s.nxt := rfl
@[simp] theorem drive_req (s : State) (f : PortOut → PortOut) : (s.drive f).req = s.req := rfl
@[simp] theorem drive_dels (s : State) (f : PortOut → PortOut) : (s.drive f).dels = s.dels := rfl
@[simp] theorem drive_schedd (s : State) (f : PortOut → PortOut) : (s.drive f).schedd = s.schedd := rfl
@[simp] theorem drive_ans (s : State) (f : PortOut → PortOut) : (s.drive f).ans = s.ans := rfl
@[simp] theorem drive_out (s : State) (f : PortOut → PortOut) : (s.drive f).out = f s.out := rfl
@[simp] theorem drive_inputs (s : State) (f : PortOut → PortOut) : (s.drive f).inputs = s.inputs := rfl
@[simp] theorem drive_line (s : State) (f : PortOut → PortOut) : (s.drive f).line = s.line := rfl

@[simp] theorem request_par (s : State) (f : RbqPorts → RbqPorts) : (s.request f).par = s.par := rfl
@[simp] theorem request_cur (s : State) (f : RbqPorts → RbqPorts) : (s.request f).cur = s.cur := rfl
@[simp] theorem request_nxt (s : State) (f : RbqPorts → RbqPorts) : (s.request f).nxt = s.nxt := rfl
@[simp] theorem request_req (s : State) (f : RbqPorts → RbqPorts) : (s.request f).req = f s.req := rfl
@[simp] theorem request_dels (s : State) (f : RbqPorts → RbqPorts) : (s.request f).dels = s.dels := rfl
@[simp] theorem request_schedd (s : State) (f : RbqPorts → RbqPorts) : (s.request f).schedd = s.schedd := rfl
@[simp] theorem request_ans (s : State) (f : RbqPorts → RbqPorts) : (s.request f).ans = s.ans := rfl
@[simp] theorem request_out (s : State) (f : RbqPorts → RbqPorts) : (s.request f).out = s.out := rfl
@[simp] theorem request_inputs (s : State) (f : RbqPorts → RbqPorts) : (s.request f).inputs = s.inputs := rfl
@[simp] theorem request_line (s : State) (f : RbqPorts → RbqPorts) : (s.request f).line = s.line := rfl

@[simp] theorem answer_par (s : State) (f : Answers → Answers) : (s.answer f).par = s.par := rfl
@[simp] theorem answer_cur (s : State) (f : Answers → Answers) : (s.answer f).cur = s.cur := rfl
@[simp] theorem answer_nxt (s : State) (f : Answers → Answers) : (s.answer f).nxt = s.nxt := rfl
@[simp] theorem answer_req (s : State) (f : Answers → Answers) : (s.answer f).req = s.req := rfl
@[simp] theorem answer_dels (s : State) (f : Answers → Answers) : (s.answer f).dels = s.dels := rfl
@[simp] theorem answer_schedd (s : State) (f : Answers → Answers) : (s.answer f).schedd = s.schedd := rfl
@[simp] theorem answer_ans (s : State) (f : Answers → Answers) : (s.answer f).ans = f s.ans := rfl
@[simp] theorem answer_out (s : State) (f : Answers → Answers) : (s.answer f).out = s.out := rfl
@[simp] theorem answer_inputs (s : State) (f : Answers → Answers) : (s.answer f).inputs = s.inputs := rfl
@[simp] theorem answer_line (s : State) (f : Answers → Answers) : (s.answer f).line = s.line := rfl

@[simp] theorem markSched_par (s : State) : (s.markSched).par = s.par := rfl
@[simp] theorem markSched_cur (s : State) : (s.markSched).cur = s.cur := rfl
@[simp] theorem markSched_nxt (s : State) : (s.markSched).nxt = s.nxt := rfl
@[simp] theorem markSched_req (s : State) : (s.markSched).req = s.req := rfl
@[simp] theorem markSched_dels (s : State) : (s.markSched).dels = s.dels := rfl
@[simp] theorem markSched_schedd (s : State) : (s.markSched).schedd = true := rfl
@[simp] theorem markSched_ans (s : State) : (s.markSched).ans = s.ans := rfl
@[simp] theorem markSched_out (s : State) : (s.markSched).out = s.out := rfl
@[simp] theorem markSched_inputs (s : State) : (s.markSched).inputs = s.inputs := rfl
@[simp] theorem markSched_line (s : State) : (s.markSched).line = s.line := rfl

@[simp] theorem recordDel_par (s : State) (i : Seq) (c : DelCause) : (s.recordDel i c).par = s.par := rfl
@[simp] theorem recordDel_cur (s : State) (i : Seq) (c : DelCause) : (s.recordDel i c).cur = s.cur := rfl
@[simp] theorem recordDel_nxt (s : State) (i : Seq) (c : DelCause) : (s.recordDel i c).nxt = s.nxt := rfl
@[simp] theorem recordDel_req (s : State) (i : Seq) (c : DelCause) : (s.recordDel i c).req = s.req := rfl
@[simp] theorem recordDel_dels (s : State) (i : Seq) (c : DelCause) : (s.recordDel i c).dels = s.dels ++ [(i, c)] := rfl
@[simp] theorem recordDel_schedd (s : State) (i : Seq) (c : DelCause) : (s.recordDel i c).schedd = s.schedd := rfl
@[simp] theorem recordDel_ans (s : State) (i : Seq) (c : DelCause) : (s.recordDel i c).ans = s.ans := rfl
@[simp] theorem recordDel_out (s : State) (i : Seq) (c : DelCause) : (s.recordDel i c).out = s.out := rfl
@[simp] theorem recordDel_inputs (s : State) (i : Seq) (c : DelCause) : (s.recordDel i c).inputs = s.inputs := rfl
@[simp] theorem recordDel_line (s : State) (i : Seq) (c : DelCause) : (s.recordDel i c).line = s.line := rfl

/-! ### Begin and end of a tick -/

@[simp] theorem beginTick_par (s : State) : s.beginTick.par = s.par := rfl
@[simp] theorem beginTick_cur (s : State) : s.beginTick.cur = s.cur := rfl
@[simp] theorem beginTick_nxt (s : State) : s.beginTick.nxt = s.cur := rfl
@[simp] theorem beginTick_req (s : State) : s.beginTick.req = { RbqPorts.idle with query := s.cur.rpId } := rfl
@[simp] theorem beginTick_dels (s : State) : s.beginTick.dels = [] := rfl
@[simp] theorem beginTick_schedd (s : State) : s.beginTick.schedd = false := rfl
@[simp] theorem beginTick_ans (s : State) : s.beginTick.ans = Answers.none := rfl
@[simp] theorem beginTick_out (s : State) : s.beginTick.out = s.baseOut := rfl
@[simp] theorem beginTick_inputs (s : State) : s.beginTick.inputs = s.inputs := rfl
@[simp] theorem beginTick_line (s : State) : s.beginTick.line = s.line := rfl

@[simp] theorem endTick_par (s : State) : s.endTick.par = s.par := rfl
@[simp] theorem endTick_cur (s : State) : s.endTick.cur = s.nxt := rfl
@[simp] theorem endTick_nxt (s : State) : s.endTick.nxt = s.nxt := rfl
@[simp] theorem endTick_req (s : State) : s.endTick.req = RbqPorts.idle := rfl
@[simp] theorem endTick_dels (s : State) : s.endTick.dels = [] := rfl
@[simp] theorem endTick_schedd (s : State) : s.endTick.schedd = false := rfl
@[simp] theorem endTick_ans (s : State) : s.endTick.ans = s.ans := rfl
@[simp] theorem endTick_out (s : State) : s.endTick.out = s.out := rfl
@[simp] theorem endTick_inputs (s : State) : s.endTick.inputs = s.inputs.tail := rfl

/-! ### Reset -/

@[simp] theorem resetWith_par (p : Params) (lines : List Line) : (State.resetWith p lines).par = p := rfl
@[simp] theorem resetWith_cur (p : Params) (lines : List Line) : (State.resetWith p lines).cur = Regs.reset p := rfl
@[simp] theorem resetWith_nxt (p : Params) (lines : List Line) : (State.resetWith p lines).nxt = Regs.reset p := rfl
@[simp] theorem resetWith_req (p : Params) (lines : List Line) : (State.resetWith p lines).req = RbqPorts.idle := rfl
@[simp] theorem resetWith_dels (p : Params) (lines : List Line) : (State.resetWith p lines).dels = [] := rfl
@[simp] theorem resetWith_schedd (p : Params) (lines : List Line) : (State.resetWith p lines).schedd = false := rfl
@[simp] theorem resetWith_ans (p : Params) (lines : List Line) : (State.resetWith p lines).ans = Answers.none := rfl
@[simp] theorem resetWith_out (p : Params) (lines : List Line) : (State.resetWith p lines).out = PortOut.zero := rfl
@[simp] theorem resetWith_inputs (p : Params) (lines : List Line) : (State.resetWith p lines).inputs = lines := rfl

end Sys2Proof.Machine
end

