-- ==== Sys2Proof/Laws/Ops.lean ====
section
/-! SUPPORT. Each shared operation of Machine/Ops.lean: once, everything it can do. -/

namespace Sys2Proof.Machine

/-! ### When an operation happens -/

/-- An operation either happens (link up, condition true) and has its effect, or leaves the state as it is. -/
theorem happens_next (c : State → Bool) (e : State → State) (s t : State) (h : happens c e s = .next t) :
    (s.line.live = true ∧ c s = true ∧ t = e s) ∨ ((s.line.live && c s) = false ∧ t = s) := by
  simp only [happens, Host.Outcome.next.injEq] at h
  cases hc : (s.line.live && c s)
  · exact .inr ⟨rfl, by simpa [hc] using h.symm⟩
  · rw [Bool.and_eq_true] at hc
    exact .inl ⟨hc.1, hc.2, by simpa [hc.1, hc.2] using h.symm⟩

/-- An operation whose condition holds in a live tick has its effect. -/
theorem happens_of (c : State → Bool) (e : State → State) (s : State) (hl : s.line.live = true) (hc : c s = true) :
    happens c e s = .next (e s) := by
  simp [happens, hl, hc]

/-- An operation whose condition does not hold, or in a tick with the link down, does nothing. -/
theorem happens_not (c : State → Bool) (e : State → State) (s : State) (h : (s.line.live && c s) = false) :
    happens c e s = .next s := by
  simp [happens, h]

theorem always_next (e : State → State) (s : State) : always e s = .next (e s) := rfl

theorem whenTaken_ready (s : State) (e : State → State) (h : s.line.txReady = true) : s.whenTaken e = e s := by
  simp [State.whenTaken, h]

theorem whenTaken_stall (s : State) (e : State → State) (h : s.line.txReady = false) : s.whenTaken e = s := by
  simp [State.whenTaken, h]

/-! ### The slots -/

/-- A store does nothing, or writes the lowest free slot of an id that is not held in a buffer that is not full (R141). -/
theorem storeFrame_cases (s : State) (id : Seq) (bytes : List Byte) :
    s.storeFrame id bytes = s ∨
      ∃ k, find s.cur.slots id = none ∧ s.rbFull = false ∧ firstFree s.cur.slots = some k ∧
        s.storeFrame id bytes =
          s.write fun r => { r with slots := r.slots.set k { occ := true, id := id, bytes := bytes } } := by
  unfold State.storeFrame
  split
  · exact .inl rfl
  · rename_i hc
    rw [Bool.or_eq_true, not_or] at hc
    split
    · rename_i k hk
      refine .inr ⟨k, ?_, by simpa using hc.2, hk, rfl⟩
      simpa [Option.isSome_iff_ne_none] using hc.1
    · exact .inl rfl

/-- A delete does nothing, or clears `occ` of the slot that holds the id (R143). -/
theorem clearSlot_cases (s : State) (i : Seq) :
    (find s.cur.slots i = none ∧ s.clearSlot i = s) ∨
      ∃ k, find s.cur.slots i = some k ∧
        s.clearSlot i = s.write fun r => { r with slots := r.slots.modify k fun sl => { sl with occ := false } } := by
  unfold State.clearSlot
  cases h : find s.cur.slots i with
  | none => exact .inl ⟨rfl, rfl⟩
  | some k => exact .inr ⟨k, rfl, rfl⟩

/-- Servicing deletes changes the slots of the next tick and the delete list, and nothing else. -/
theorem serviceDelete_frame (s : State) (c : DelCause) (i : Seq) :
    ∃ sl ds, s.serviceDelete c i = { s with nxt := { s.nxt with slots := sl }, dels := ds } := by
  unfold State.serviceDelete
  split
  · exact ⟨s.nxt.slots, s.dels, rfl⟩
  · rcases clearSlot_cases s i with ⟨-, h⟩ | ⟨k, -, h⟩
    · exact ⟨s.nxt.slots, s.dels ++ [(i, c)], by rw [h]; rfl⟩
    · exact ⟨_, s.dels ++ [(i, c)], by rw [h]; rfl⟩

theorem serviceDeletes_frame (c : DelCause) (ids : List Seq) (s : State) :
    ∃ sl ds, s.serviceDeletes c ids = { s with nxt := { s.nxt with slots := sl }, dels := ds } := by
  induction ids generalizing s with
  | nil => exact ⟨s.nxt.slots, s.dels, rfl⟩
  | cons i is ih =>
    obtain ⟨sl, ds, h⟩ := serviceDelete_frame s c i
    obtain ⟨sl', ds', h'⟩ := ih (s.serviceDelete c i)
    refine ⟨sl', ds', ?_⟩
    change (s.serviceDelete c i).serviceDeletes c is = _
    rw [h', h]

/-- A send does nothing, or copies the frame of the slot that holds the id (R150). -/
theorem startSend_cases (s : State) (id : Seq) :
    (find s.cur.slots id = none ∧ s.startSend id = s) ∨
      ∃ k, find s.cur.slots id = some k ∧
        s.startSend id = s.write fun r =>
          { r with rpBytes := (s.cur.slots.getD k Slot.free).bytes, rpPos := 0, rpBusy := true } := by
  unfold State.startSend
  cases h : find s.cur.slots id with
  | none => exact .inl ⟨rfl, rfl⟩
  | some k => exact .inr ⟨k, rfl, rfl⟩

/-- A beat of a re-sent frame: offered; and if it is taken, the frame is done or the next byte is due (R151). -/
theorem sendBeat_cases (s : State) :
    let o := s.offer s.replayByte (s.cur.rpPos == 0) s.lastBeat false
    (s.line.txReady = false ∧ s.sendBeat = o) ∨
    (s.line.txReady = true ∧ s.lastBeat = true ∧
      s.sendBeat = o.write fun r => { r with rpBusy := false, rpPos := 0, rpBytes := [] }) ∨
    (s.line.txReady = true ∧ s.lastBeat = false ∧ s.sendBeat = o.write fun r => { r with rpPos := s.cur.rpPos + 1 }) := by
  intro o
  have hl : o.line = s.line := rfl
  cases ht : s.line.txReady
  · exact .inl ⟨rfl, whenTaken_stall _ _ (by rw [hl, ht])⟩
  · refine .inr ?_
    have h : s.sendBeat = _ := whenTaken_ready o _ (by rw [hl, ht])
    cases hb : s.lastBeat
    · exact .inr ⟨rfl, rfl, by rw [h]; simp [hb]⟩
    · exact .inl ⟨rfl, rfl, by rw [h]; simp [hb]⟩

/-! ### The receive side -/

/-- A frame that is not accepted: the staging is released, and a NAK is scheduled unless one has been (R232). -/
theorem raiseNak_cases (s : State) :
    (s.cur.nakScheduled = true ∧ s.raiseNak = s.releaseStaging .idle) ∨
    (s.cur.nakScheduled = false ∧
      s.raiseNak =
        ((s.schedNow false (seqDec s.cur.nrs)).write fun r => { r with nakScheduled := true }).releaseStaging .idle) := by
  unfold State.raiseNak
  cases h : s.cur.nakScheduled
  · exact .inr ⟨rfl, rfl⟩
  · exact .inl ⟨rfl, rfl⟩

/-- A byte of a frame is appended, or dropped with `rx_oversize` set (R223). -/
theorem capture_cases (s : State) (d : Byte) :
    (s.cur.rxStage.length < maxFrame s.par ∧
      s.capture d = s.write fun r => { r with rxStage := s.cur.rxStage ++ [d] }) ∨
    (maxFrame s.par ≤ s.cur.rxStage.length ∧ s.capture d = s.write fun r => { r with rxOversize := true }) := by
  unfold State.capture
  split
  · exact .inl ⟨‹_›, rfl⟩
  · exact .inr ⟨by omega, rfl⟩

/-- An accepted frame joins the queue; the ACK is scheduled, or deferred when the queue is then full (R230). -/
theorem acceptFrame_cases (s : State) :
    let e : RxEntry := { id := rxId s.cur.rxStage, payload := rxPayload s.cur.rxStage }
    let t := s.write fun r => { r with nrs := seqInc s.cur.nrs, nakScheduled := false, rxq := r.rxq ++ [e] }
    (s.nxt.rxq.length + 1 = s.par.rxCap ∧ s.acceptFrame = t.releaseStaging .waitspace) ∨
    (s.nxt.rxq.length + 1 ≠ s.par.rxCap ∧ s.acceptFrame = (t.schedNow true (rxId s.cur.rxStage)).releaseStaging .idle) := by
  intro e t
  have hl : t.nxt.rxq.length = s.nxt.rxq.length + 1 := by simp [t]
  by_cases h : s.nxt.rxq.length + 1 = s.par.rxCap
  · exact .inl ⟨h, by simp [State.acceptFrame, h, t, e]⟩
  · exact .inr ⟨h, by simp [State.acceptFrame, h, t, e]⟩

end Sys2Proof.Machine
end

