-- ==== Sys2Proof/Laws/PerInstr.lean ====
section
/-! SUPPORT. A family of statements about every operation as syntax: its word stands on a port of the format that the column
"format" of spec/opcode_table.json gives its row, and an operation of a format without a word has none. -/

namespace Sys2Proof.Laws

/-- The formats of the opcode table (30_encoding.md R90, R105); `series` is the format the table calls macro. -/
inductive TableFormat where
  | function | rbqStore | rbqDelete | rbqQuery | rbqSend | series | up | cond | ctlIn | beatIn | vc | ctlOut | port | outputs
deriving DecidableEq, Repr

/-- R103, R105: the formats in which an operation has an interface word. -/
def TableFormat.hasWord : TableFormat → Bool
  | .function => false
  | .series => false
  | .cond => false
  | .outputs => false
  | .rbqStore => true
  | .rbqDelete => true
  | .rbqQuery => true
  | .rbqSend => true
  | .up => true
  | .ctlIn => true
  | .beatIn => true
  | .vc => true
  | .ctlOut => true
  | .port => true

/-- The format a port carries (R90, R101). -/
def portFormat : PortWord → TableFormat
  | .up _ => .up
  | .beat _ => .beatIn
  | .ctl _ => .ctlIn
  | .store _ _ => .rbqStore
  | .delA _ => .rbqDelete
  | .delB _ => .rbqDelete
  | .query _ => .rbqQuery
  | .send _ => .rbqSend
  | .vc _ => .vc
  | .ctlOut _ => .ctlOut
  | .pop _ => .port
  | .link _ => .port

/-- The format of each row of the opcode table. -/
def tableFormat : Instr → TableFormat
  | .seqDist _ _ => .function
  | .seqInc _ => .function
  | .seqDec _ => .function
  | .seqOldeq _ _ => .function
  | .seqPrecedes _ _ => .function
  | .seqWinopen _ _ => .function
  | .rbStore _ _ => .rbqStore
  | .rbDelete _ => .rbqDelete
  | .rbContains _ => .rbqQuery
  | .rbCount => .function
  | .rbSend _ => .rbqSend
  | .rbSendall => .series
  | .txStart => .up
  | .txHdr1 => .cond
  | .txData _ _ => .up
  | .txNullify => .up
  | .txCrc => .cond
  | .txOverlen _ => .up
  | .txAbort => .cond
  | .txComplete => .cond
  | .txReplayEnter => .cond
  | .txReplayDrop => .cond
  | .txReplayExit => .cond
  | .txReplayPassend => .cond
  | .txReplaySend => .cond
  | .txReplayAgain => .cond
  | .txReplaySkip => .cond
  | .txReplayNext => .cond
  | .txAck _ => .ctlIn
  | .txAckIgnored _ => .ctlIn
  | .txNak _ => .ctlIn
  | .txNakIgnored _ => .ctlIn
  | .txTimeout => .cond
  | .rxStart _ _ _ => .beatIn
  | .rxStray => .beatIn
  | .rxData _ => .beatIn
  | .rxEnd _ => .beatIn
  | .rxTrunc _ => .beatIn
  | .rxAccept => .vc
  | .rxDup => .vc
  | .rxGap => .vc
  | .rxCorrupt => .vc
  | .rxSpace => .cond
  | .ctlSend _ _ => .ctlOut
  | .rxKeepalive => .cond
  | .rxqPop => .port
  | .linkDown _ _ => .port
  | .status => .outputs

/-- The word of the operation, if it has one, stands on a port of its row's format; a row without a word has none. -/
def WordFormat.Statement (i : Instr) : Prop :=
  (∀ pw, encode i = some pw → portFormat pw = tableFormat i) ∧ ((tableFormat i).hasWord = false → encode i = none)

/-- An operation without a word. -/
theorem wordFormat_of_none (i : Instr) (h : encode i = none) : WordFormat.Statement i :=
  ⟨fun pw hp => (Option.some_ne_none pw (hp.symm.trans h)).elim, fun _ => h⟩

/-- An operation with a word on a port of its row's format. -/
theorem wordFormat_of_some (i : Instr) (pw : PortWord) (h : encode i = some pw) (hp : portFormat pw = tableFormat i)
    (hw : (tableFormat i).hasWord = true) : WordFormat.Statement i :=
  ⟨fun pw' h' => by rw [h] at h'; cases h'; exact hp, fun hn => by rw [hw] at hn; cases hn⟩

theorem WordFormat.seqDist (a b : Seq) : WordFormat.Statement (.seqDist a b) := wordFormat_of_none _ rfl
theorem WordFormat.seqInc (a : Seq) : WordFormat.Statement (.seqInc a) := wordFormat_of_none _ rfl
theorem WordFormat.seqDec (a : Seq) : WordFormat.Statement (.seqDec a) := wordFormat_of_none _ rfl
theorem WordFormat.seqOldeq (ref id : Seq) : WordFormat.Statement (.seqOldeq ref id) := wordFormat_of_none _ rfl
theorem WordFormat.seqPrecedes (x y : Seq) : WordFormat.Statement (.seqPrecedes x y) := wordFormat_of_none _ rfl
theorem WordFormat.seqWinopen (nts lastAcked : Seq) : WordFormat.Statement (.seqWinopen nts lastAcked) := wordFormat_of_none _ rfl
theorem WordFormat.rbStore (id : Seq) (bytes : List Byte) : WordFormat.Statement (.rbStore id bytes) := wordFormat_of_some _ _ rfl rfl rfl
theorem WordFormat.rbDelete (req : DelReq) : WordFormat.Statement (.rbDelete req) := by
  cases req <;> exact wordFormat_of_some _ _ rfl rfl rfl
theorem WordFormat.rbContains (id : Seq) : WordFormat.Statement (.rbContains id) := wordFormat_of_some _ _ rfl rfl rfl
theorem WordFormat.rbCount : WordFormat.Statement (.rbCount) := wordFormat_of_none _ rfl
theorem WordFormat.rbSend (req : SendReq) : WordFormat.Statement (.rbSend req) := by
  cases req
  · exact wordFormat_of_some _ _ rfl rfl rfl
  · exact wordFormat_of_none _ rfl
theorem WordFormat.rbSendall : WordFormat.Statement (.rbSendall) := wordFormat_of_none _ rfl
theorem WordFormat.txStart : WordFormat.Statement (.txStart) := wordFormat_of_some _ _ rfl rfl rfl
theorem WordFormat.txHdr1 : WordFormat.Statement (.txHdr1) := wordFormat_of_none _ rfl
theorem WordFormat.txData (last : Bool) (data : Byte) : WordFormat.Statement (.txData last data) := wordFormat_of_some _ _ rfl rfl rfl
theorem WordFormat.txNullify : WordFormat.Statement (.txNullify) := wordFormat_of_some _ _ rfl rfl rfl
theorem WordFormat.txCrc : WordFormat.Statement (.txCrc) := wordFormat_of_none _ rfl
theorem WordFormat.txOverlen (data : Byte) : WordFormat.Statement (.txOverlen data) := wordFormat_of_some _ _ rfl rfl rfl
theorem WordFormat.txAbort : WordFormat.Statement (.txAbort) := wordFormat_of_none _ rfl
theorem WordFormat.txComplete : WordFormat.Statement (.txComplete) := wordFormat_of_none _ rfl
theorem WordFormat.txReplayEnter : WordFormat.Statement (.txReplayEnter) := wordFormat_of_none _ rfl
theorem WordFormat.txReplayDrop : WordFormat.Statement (.txReplayDrop) := wordFormat_of_none _ rfl
theorem WordFormat.txReplayExit : WordFormat.Statement (.txReplayExit) := wordFormat_of_none _ rfl
theorem WordFormat.txReplayPassend : WordFormat.Statement (.txReplayPassend) := wordFormat_of_none _ rfl
theorem WordFormat.txReplaySend : WordFormat.Statement (.txReplaySend) := wordFormat_of_none _ rfl
theorem WordFormat.txReplayAgain : WordFormat.Statement (.txReplayAgain) := wordFormat_of_none _ rfl
theorem WordFormat.txReplaySkip : WordFormat.Statement (.txReplaySkip) := wordFormat_of_none _ rfl
theorem WordFormat.txReplayNext : WordFormat.Statement (.txReplayNext) := wordFormat_of_none _ rfl
theorem WordFormat.txAck (id : Seq) : WordFormat.Statement (.txAck id) := wordFormat_of_some _ _ rfl rfl rfl
theorem WordFormat.txAckIgnored (id : Seq) : WordFormat.Statement (.txAckIgnored id) := wordFormat_of_some _ _ rfl rfl rfl
theorem WordFormat.txNak (id : Seq) : WordFormat.Statement (.txNak id) := wordFormat_of_some _ _ rfl rfl rfl
theorem WordFormat.txNakIgnored (id : Seq) : WordFormat.Statement (.txNakIgnored id) := wordFormat_of_some _ _ rfl rfl rfl
theorem WordFormat.txTimeout : WordFormat.Statement (.txTimeout) := wordFormat_of_none _ rfl
theorem WordFormat.rxStart (eof bad : Bool) (data : Byte) : WordFormat.Statement (.rxStart eof bad data) := wordFormat_of_some _ _ rfl rfl rfl
theorem WordFormat.rxStray : WordFormat.Statement (.rxStray) := wordFormat_of_some _ _ rfl rfl rfl
theorem WordFormat.rxData (data : Byte) : WordFormat.Statement (.rxData data) := wordFormat_of_some _ _ rfl rfl rfl
theorem WordFormat.rxEnd (data : Byte) : WordFormat.Statement (.rxEnd data) := wordFormat_of_some _ _ rfl rfl rfl
theorem WordFormat.rxTrunc (data : Byte) : WordFormat.Statement (.rxTrunc data) := wordFormat_of_some _ _ rfl rfl rfl
theorem WordFormat.rxAccept : WordFormat.Statement (.rxAccept) := wordFormat_of_some _ _ rfl rfl rfl
theorem WordFormat.rxDup : WordFormat.Statement (.rxDup) := wordFormat_of_some _ _ rfl rfl rfl
theorem WordFormat.rxGap : WordFormat.Statement (.rxGap) := wordFormat_of_some _ _ rfl rfl rfl
theorem WordFormat.rxCorrupt : WordFormat.Statement (.rxCorrupt) := wordFormat_of_some _ _ rfl rfl rfl
theorem WordFormat.rxSpace : WordFormat.Statement (.rxSpace) := wordFormat_of_none _ rfl
theorem WordFormat.ctlSend (positive : Bool) (id : Seq) : WordFormat.Statement (.ctlSend positive id) := wordFormat_of_some _ _ rfl rfl rfl
theorem WordFormat.rxKeepalive : WordFormat.Statement (.rxKeepalive) := wordFormat_of_none _ rfl
theorem WordFormat.rxqPop : WordFormat.Statement (.rxqPop) := wordFormat_of_some _ _ rfl rfl rfl
theorem WordFormat.linkDown (rst linkUp : Bool) : WordFormat.Statement (.linkDown rst linkUp) := wordFormat_of_some _ _ rfl rfl rfl
theorem WordFormat.status : WordFormat.Statement (.status) := wordFormat_of_none _ rfl

end Sys2Proof.Laws
end

