-- ==== Sys2Proof/Laws/Steps.lean ====
section
/-! SUPPORT. Running a list of operations, and the shape of a step. -/

namespace Sys2Proof.Machine

@[simp] theorem andThen_next (s : State) (f : State → Host.Outcome State Fault Refusal) : andThen (.next s) f = f s := rfl

/-- A composition that answers a next state passes through one. -/
theorem andThen_eq_next (o : Host.Outcome State Fault Refusal) (f : State → Host.Outcome State Fault Refusal) (t : State)
    (h : andThen o f = .next t) : ∃ s, o = .next s ∧ f s = .next t := by
  cases o with
  | next s => exact ⟨s, rfl, h⟩
  | fault r => cases r
  | refused r => simp [andThen] at h

@[simp] theorem runAll_nil (s : State) : runAll [] s = .next s := rfl

theorem runAll_cons (i : Instr) (is : List Instr) (s : State) : runAll (i :: is) s = andThen (exec i s) (runAll is) := rfl

/-- Running two lists, one after the other. -/
theorem runAll_append (a b : List Instr) (s : State) : runAll (a ++ b) s = andThen (runAll a s) (runAll b) := by
  induction a generalizing s with
  | nil => rfl
  | cons i is ih =>
    simp only [List.cons_append, runAll_cons]
    cases h : exec i s with
    | next t => simp only [andThen_next, ih]
    | fault r => rfl
    | refused r => rfl

/-- The operations that a word selects: the one it decodes to, if any. -/
theorem mem_decoded (s : State) (pw : PortWord) (i : Instr) : i ∈ s.decoded pw ↔ decode s.decodeCtx pw = .instr i := by
  unfold State.decoded
  cases decode s.decodeCtx pw <;> simp [Decoded.toList, eq_comm]

/-- The link word of a tick with the link up selects nothing. -/
theorem decode_link_of_live (s : State) (h : s.line.live = true) :
    decode s.decodeCtx (.link (linkWord s.line.rst s.line.linkUp)) = .rejected .linkIsUp := by
  have up : ∀ a b : Bool, (b && !a) = true → (linkWordRst (linkWord a b) || !linkWordUp (linkWord a b)) = false := by decide
  simp only [decode, up _ _ h, Bool.false_eq_true, if_false]

/-- With the link up the operations of a tick are those of `liveOps`. -/
theorem selected_of_live (s : State) (h : s.line.live = true) : s.selected = s.liveOps := by
  simp only [State.selected, decode_link_of_live s h]

/-- A step of a block whose parameters are in range is its tick, then the timers, then the commit. -/
theorem step_of_wf (s : State) (h : s.par.wf = true) :
    step s = andThen (runTick s.beginTick) fun t => .next t.clockTimers.endTick := by
  simp [step, h]

/-- A step that answers a next state: the parameters are in range and the tick answered. -/
theorem step_eq_next (s t : State) (h : step s = .next t) :
    s.par.wf = true ∧ ∃ u, runTick s.beginTick = .next u ∧ t = u.clockTimers.endTick := by
  unfold step at h
  split at h
  · rename_i hw
    obtain ⟨u, hu, ht⟩ := andThen_eq_next _ _ _ h
    exact ⟨hw, u, hu, by simpa using ht.symm⟩
  · cases h

end Sys2Proof.Machine
end

