-- ==== Sys2Proof/Machine/Trace.lean ====
section
/-! DEFINITION. The trace notation and the macros of spec/30_encoding.md R106 and R107, as input lines. -/

namespace Sys2Proof.Machine

/-- `UP b`. -/
def Line.up (l : Line) (b : Byte) : Line := { l with uw := upWord true false b }
/-- `UPL b`. -/
def Line.upl (l : Line) (b : Byte) : Line := { l with uw := upWord true true b }
/-- `RX b`. -/
def Line.rx (l : Line) (b : Byte) : Line := { l with bw := beatWord true false false false b }
/-- `RXS b`. -/
def Line.rxs (l : Line) (b : Byte) : Line := { l with bw := beatWord true true false false b }
/-- `RXE b`. -/
def Line.rxe (l : Line) (b : Byte) : Line := { l with bw := beatWord true false true false b }
/-- `RXT b`. -/
def Line.rxt (l : Line) (b : Byte) : Line := { l with bw := beatWord true false true true b }
/-- `ACK i`. -/
def Line.ack (l : Line) (i : Seq) : Line := { l with cw := ctlWord true true i }
/-- `NAK i`. -/
def Line.nak (l : Line) (i : Seq) : Line := { l with cw := ctlWord true false i }
/-- `STALL`. -/
def Line.stall (l : Line) : Line := { l with txReady := false }
/-- `CSTALL`. -/
def Line.cstall (l : Line) : Line := { l with ctlTxReady := false }
/-- `POP`. -/
def Line.pop (l : Line) : Line := { l with rxqPop := true }
/-- `DOWN`. -/
def Line.down (l : Line) : Line := { l with linkUp := false }

/-- `SUBMIT [b0, ..., bn]` with no stall: the first byte is held for the two header ticks, then one byte a tick. -/
def submitLines : List Byte → List Line
  | [] => []
  | [b] => List.replicate 3 (Line.idle.upl b)
  | b :: c :: bs =>
    List.replicate 3 (Line.idle.up b) ++ ((c :: bs).dropLast.map Line.idle.up) ++
      (((c :: bs).getLast?.map Line.idle.upl).toList)

/-- The beats of a frame of two bytes or more, the last one made by `last`. -/
def beatLines (last : Line → Byte → Line) : List Byte → List Line
  | [] => []
  | b :: bs => [Line.idle.rxs b] ++ bs.dropLast.map Line.idle.rx ++ (bs.getLast?.map (last Line.idle)).toList

/-- `FRAME i [p...]`. -/
def frameLines (k : CrcKind) (i : Seq) (payload : List Byte) : List Line :=
  beatLines Line.rxe (frameBytes i payload (crcOf k (header i ++ payload)))

/-- `BADFRAME i [p...]`. -/
def badFrameLines (k : CrcKind) (i : Seq) (payload : List Byte) : List Line :=
  beatLines Line.rxe (frameBytes i payload (~~~ crcOf k (header i ++ payload)))

/-- `TRUNCFRAME i [p...]`. -/
def truncFrameLines (k : CrcKind) (i : Seq) (payload : List Byte) : List Line :=
  beatLines Line.rxt (frameBytes i payload (~~~ crcOf k (header i ++ payload)))

/-- `IDLE n`. -/
def idleLines (n : Nat) : List Line := List.replicate n Line.idle

end Sys2Proof.Machine
end

