-- ==== Sys2Proof/Tests/Slice0.lean ====
section
/-! SUPPORT. Tests, with expected values from spec/95_test_vectors.md (V-…) and from the examples of the rules (R…), and for
every statement with hypotheses a state and operands that meet them. -/

namespace Sys2Proof.Tests
open Sys2Proof Sys2Proof.Machine

-- One theorem at a time: side by side they take a thread each.
set_option Elab.async false

/-! ### Helpers -/

/-- The next state of an outcome. -/
def after : Host.Outcome State Fault Refusal → Option State
  | .next s => some s
  | .fault _ => none
  | .refused _ => none

theorem next_of_isSome (o : Host.Outcome State Fault Refusal) (h : (after o).isSome = true) : ∃ t, o = .next t := by
  cases o with
  | next s => exact ⟨s, rfl⟩
  | fault r => cases r
  | refused r => cases h

/-- The build D59 with some registers set and one input line. -/
def start (f : Regs → Regs) (l : Line) : State :=
  { State.reset with cur := f (Regs.reset Config.d59), nxt := f (Regs.reset Config.d59), inputs := [l] }

def f0 : List Byte := [0x00, 0x00, 0xaa, 0x00, 0x00, 0x00, 0xaa]
def f1 : List Byte := [0x00, 0x01, 0xbb, 0x00, 0x00, 0x00, 0xbc]
def slot0 : Slot := { occ := true, id := 0, bytes := f0 }
def slot1 : Slot := { occ := true, id := 1, bytes := f1 }

/-- One frame outstanding, id 0 in slot 0. -/
def one (r : Regs) : Regs := { r with nts := 1, unacked := [0], slots := [slot0, Slot.free] }

/-- Two frames outstanding, the buffer full (V-RB-3). -/
def two (r : Regs) : Regs := { r with nts := 2, unacked := [0, 1], slots := [slot0, slot1] }

/-- A pass over two frames, its cursor at `i`. -/
def passing (i : Seq) (r : Regs) : Regs := { two r with rcState := .replaying, rpPass := true, rpId := i }

/-- A framer in state `f` with `s` staged. -/
def framing (f : FrState) (s : List Byte) (r : Regs) : Regs := { r with frState := f, txStage := s }

/-- A frame under validation. -/
def validating (nrs : Seq) (f : List Byte) (r : Regs) : Regs := { r with nrs := nrs, rxState := .validating, rxStage := f }

/-- One register of the next tick after one operation. -/
def nxtOf {α : Type} (g : Regs → α) (i : Instr) (s : State) : Option α := (after (exec i s)).map fun t => g t.nxt

/-- One register after a tick. -/
def curOf {α : Type} (g : Regs → α) (s : State) : Option α := (after (step s)).map fun t => g t.cur

/-- One output of a tick. -/
def outOf {α : Type} (g : PortOut → α) (s : State) : Option α := (after (step s)).map fun t => g t.out

/-- The beat of a tick: data, sof, eof, bad, when one is offered. -/
def beatOf (s : State) : Option (Option (Byte × Bool × Bool × Bool)) :=
  outOf (fun o => if o.txValid then some (o.txData, o.txSof, o.txEof, o.txBad) else none) s

/-! ### Well-formedness and parameters: each check refuses an ill-formed term -/

theorem test_wf_store_short : (Instr.rbStore 1 [0, 0, 0, 0, 0]).wf Config.d59 = false := by decide
theorem test_wf_store_long : (Instr.rbStore 1 (List.replicate 11 0)).wf Config.d59 = false := by decide
theorem test_wf_store_shortest : (Instr.rbStore 1 zeroFrame).wf Config.d59 = true := by decide
theorem test_wf_link_up : (Instr.linkDown false true).wf Config.d59 = false := by decide
theorem test_params_slots : Params.wf { Config.d59 with nSlots := 0 } = false := by decide
theorem test_params_queue : Params.wf { Config.d59 with rxCap := 0 } = false := by decide
theorem test_params_payload : Params.wf { Config.d59 with maxPayload := 0 } = false := by decide
theorem test_params_replay : Params.wf { Config.d59 with replayLimit := 0 } = false := by decide
theorem test_params_ack : Params.wf { Config.d59 with ackLimit := 0 } = false := by decide
theorem test_step_refuses_bad_parameters :
    step { State.reset with par := { Config.d59 with nSlots := 0 } } = .refused .parametersOutOfRange := rfl

/-! ### Decoding: words written out bit by bit from R91, R93, R95, R101, R102, R262 -/

/-- Registers in which each word of the tests below selects its operation. -/
def ctx : DecodeCtx := { up := .payload false, rx := .receiving, unacked := [5], passBusy := false }

-- V-ENC-11, V-ENC-12
theorem test_decode_ack : decode ctx (.ctl 0b11000000000101#14) = .instr (.txAck 5) := by decide
theorem test_decode_ack_ignored : decode ctx (.ctl 0b11111111111111#14) = .instr (.txAckIgnored 4095) := by decide
theorem test_decode_nak : decode ctx (.ctl 0b10000000000000#14) = .instr (.txNak 0) := by decide
theorem test_decode_nak_ignored :
    decode { ctx with passBusy := true } (.ctl 0b10000000000000#14) = .instr (.txNakIgnored 0) := by decide
theorem test_decode_no_message : decode ctx (.ctl 0b00000000000101#14) = .rejected .portIdle := by decide
-- V-ENC-13, R221 to R225
theorem test_decode_rx_start :
    decode { ctx with rx := .idle } (.beat 0b110000000000#12) = .instr (.rxStart false false 0) := by decide
theorem test_decode_rx_stray : decode { ctx with rx := .idle } (.beat 0b101001010101#12) = .instr .rxStray := by decide
theorem test_decode_rx_end : decode ctx (.beat 0b101010101010#12) = .instr (.rxEnd 0xaa) := by decide
theorem test_decode_rx_trunc : decode ctx (.beat 0b101101010101#12) = .instr (.rxTrunc 0x55) := by decide
theorem test_decode_rx_data_ignores_sof_and_bad :
    decode ctx (.beat 0b110100000111#12) = .instr (.rxData 7) := by decide
theorem test_decode_rx_held : decode { ctx with rx := .waitspace } (.beat 0b110000000000#12) = .rejected .beatHeld := by
  decide
-- V-ENC-14, R172, R176, R178
theorem test_decode_tx_data : decode ctx (.up 0b1100100010#10) = .instr (.txData true 0x22) := by decide
theorem test_decode_tx_start : decode { ctx with up := .opening } (.up 0b1000010001#10) = .instr .txStart := by decide
theorem test_decode_tx_nullify : decode ctx (.up 0b0111111111#10) = .instr .txNullify := by decide
theorem test_decode_tx_overlen :
    decode { ctx with up := .payload true } (.up 0b1000010001#10) = .instr (.txOverlen 0x11) := by decide
theorem test_decode_up_ignored : decode { ctx with up := .shut } (.up 0b1000010001#10) = .rejected .byteIgnored := by decide
-- R101
theorem test_decode_store :
    decode ctx (.store 0b1000000000111#13 zeroFrame) = .instr (.rbStore 7 zeroFrame) := by decide
theorem test_decode_delete_a :
    decode ctx (.delA 0b1000000000001000000000011#25) = .instr (.rbDelete (.portA 1 3)) := by decide
theorem test_decode_delete_b : decode ctx (.delB 0b1000000000111#13) = .instr (.rbDelete (.portB 7)) := by decide
theorem test_decode_contains : decode ctx (.query 0b000000000111#12) = .instr (.rbContains 7) := by decide
theorem test_decode_send : decode ctx (.send 0b1000000000111#13) = .instr (.rbSend (.start 7)) := by decide
-- R102
theorem test_decode_accept : decode ctx (.vc 0b00#2) = .instr .rxAccept := by decide
theorem test_decode_dup : decode ctx (.vc 0b01#2) = .instr .rxDup := by decide
theorem test_decode_gap : decode ctx (.vc 0b10#2) = .instr .rxGap := by decide
theorem test_decode_corrupt : decode ctx (.vc 0b11#2) = .instr .rxCorrupt := by decide
-- R91 outgoing, R243, R262
theorem test_decode_ctl_send : decode ctx (.ctlOut 0b11000000000101#14) = .instr (.ctlSend true 5) := by decide
theorem test_decode_pop : decode ctx (.pop 0b1#1) = .instr .rxqPop := by decide
theorem test_decode_link_down : decode ctx (.link 0b00#2) = .instr (.linkDown false false) := by decide
theorem test_decode_link_rst : decode ctx (.link 0b11#2) = .instr (.linkDown true true) := by decide
theorem test_decode_link_is_up : decode ctx (.link 0b01#2) = .rejected .linkIsUp := by decide

-- rows of spec/opcode_table.json by their match value
theorem test_table_store : decodeTableWord 16 4096 = some (.rbStore 0 zeroFrame) := by decide
theorem test_table_start : decodeTableWord 16 512 = some .txStart := by decide
theorem test_table_ack : decodeTableWord 16 12288 = some (.txAck 0) := by decide
theorem test_table_nak : decodeTableWord 16 8192 = some (.txNak 0) := by decide
theorem test_table_rx_trunc : decodeTableWord 16 2816 = some (.rxTrunc 0) := by decide
theorem test_table_gap : decodeTableWord 8 2 = some .rxGap := by decide
theorem test_withFetchWord_ack :
    curOf (fun r => (r.lastAcked, r.unacked)) (State.reset.withFetchWord 16 12295) = some (7, []) := by decide +kernel

/-! ### Frames, R96, R97 -/

-- V-ENC-4, V-ENC-7, V-ENC-10
theorem test_frame_bytes : frameBytes 4095 [0xaa] (toySum (header 4095 ++ [0xaa])) =
    [0x0f, 0xff, 0xaa, 0x00, 0x00, 0x01, 0xb8] := by decide
theorem test_nullified_frame_bytes : frameBytes 0 [0xaa] (~~~ toySum (header 0 ++ [0xaa])) =
    [0x00, 0x00, 0xaa, 0xff, 0xff, 0xff, 0x55] := by decide
theorem test_rx_fields :
    let f : List Byte := [0x50, 0x01, 0xbb, 0x00, 0x00, 0x01, 0x0c]
    rxId f = 1 ∧ rxPayload f = [0xbb] ∧ rxTrailer f = 0x10c ∧ rxCovered f = [0x50, 0x01, 0xbb] := by decide

/-! ### Sequence arithmetic, V-SEQ-2 to V-SEQ-16 -/

def answerOf {α : Type} (g : Answers → α) (i : Instr) : Option α := (after (exec i State.reset)).map fun t => g t.ans

theorem test_dist_order : answerOf (·.seqResult) (.seqDist 3 5) = some 4094 := by decide
theorem test_dist_wraps : answerOf (·.seqResult) (.seqDist 0 4095) = some 1 := by decide
theorem test_inc_wraps : answerOf (·.seqResult) (.seqInc 4095) = some 0 := by decide
theorem test_dec_wraps : answerOf (·.seqResult) (.seqDec 0) = some 4095 := by decide
theorem test_oldeq_2048 : answerOf (·.testResult) (.seqOldeq 0 2048) = some true := by decide
theorem test_oldeq_2049 : answerOf (·.testResult) (.seqOldeq 0 2047) = some false := by decide
theorem test_precedes_wraps : answerOf (·.testResult) (.seqPrecedes 4095 0) = some true := by decide
theorem test_precedes_strict : answerOf (·.testResult) (.seqPrecedes 7 7) = some false := by decide
theorem test_winopen_2047 : answerOf (·.testResult) (.seqWinopen 2046 4095) = some true := by decide
theorem test_winopen_2048 : answerOf (·.testResult) (.seqWinopen 2047 4095) = some false := by decide

/-! ### Retry buffer -/

-- V-RB-1, V-RB-2
theorem test_store_first_free : nxtOf (·.slots) (.rbStore 0 f0) (start id Line.idle) = some [slot0, Slot.free] := by decide
theorem test_store_held : nxtOf (·.slots) (.rbStore 0 f1) (start one Line.idle) = some [slot0, Slot.free] := by decide
-- V-RB-4, V-RB-9
theorem test_delete_b : nxtOf (·.slots) (.rbDelete (.portB 0)) (start two Line.idle) =
    some [{ slot0 with occ := false }, slot1] := by decide
theorem test_delete_a : nxtOf (fun r => r.slots.map Slot.occ) (.rbDelete (.portA 0 1)) (start two Line.idle) =
    some [false, false] := by decide
-- V-RB-6, V-RB-11
theorem test_contains : (after (exec (.rbContains 0)
    (start (fun r => { r with slots := [{ slot0 with occ := false }, slot1] }) Line.idle))).map (·.ans.qHit) =
    some false := by decide
theorem test_count : (after (exec .rbCount (start two Line.idle))).map
    (fun t => (t.ans.rbCount, t.ans.rbFull, t.ans.rbEmpty)) = some (2, true, false) := by decide
-- V-RB-12, V-RB-14
theorem test_send_start : nxtOf (fun r => (r.rpBytes, r.rpPos, r.rpBusy)) (.rbSend (.start 0)) (start one Line.idle) =
    some (f0, 0, true) := by decide
theorem test_send_last_beat : beatOf
    (start (fun r => { passing 0 r with rpBusy := true, rpBytes := f0, rpPos := 6 }) Line.idle) =
    some (some (0xaa, false, true, false)) := by decide +kernel
-- V-RB-15: the pass over ids 4095, 0 starts at 4095
theorem test_sendall_oldest_first : nxtOf (·.rpBytes) .rbSendall
    (start (fun r => { passing 4095 r with nts := 1, unacked := [4095, 0],
                                           slots := [slot0, { slot1 with id := 4095 }] }) Line.idle) = some f1 := by decide

/-! ### Framer -/

-- V-TX-1, V-TX-3
theorem test_tx_start : beatOf (start (fun r => { r with nts := 0x123, lastAcked := 0x122 }) (Line.idle.upl 0xaa)) =
    some (some (0x01, true, false, false)) := by decide +kernel
theorem test_tx_start_stalled : curOf (·.frState) (start id (Line.idle.upl 0xaa).stall) = some .idle := by decide +kernel
-- V-TX-2
theorem test_tx_hdr1 : nxtOf (fun r => (r.txStage, r.frState)) .txHdr1
    (start (fun r => framing .hdr1 [0x01] { r with nts := 0x123 }) (Line.idle.upl 0xaa)) =
    some ([0x01, 0x23], .payload) := by decide
-- R175, R176, R178 examples
theorem test_tx_data : nxtOf (fun r => (r.txStage, r.txCrc, r.frState)) (.txData true 0xaa)
    (start (framing .payload [0, 0]) (Line.idle.upl 0xaa)) = some ([0, 0, 0xaa], 0xaa, .crc0) := by decide
theorem test_tx_nullify : nxtOf (fun r => (r.txNull, r.txCrc, r.frState)) .txNullify
    (start (framing .payload [0, 0, 0xaa]) Line.idle.stall) = some (true, 0xffffff55, .crc0) := by decide
theorem test_tx_overlen : nxtOf (fun r => (r.txNull, r.txCrc)) (.txOverlen 4)
    (start (framing .payload [0, 0, 1, 2, 3]) (Line.idle.up 4)) = some (true, 0xfffffff5) := by decide
-- R177, R179, R180 examples
theorem test_tx_crc : beatOf (start (fun r => { framing .crc1 [0, 0] r with txCrc := 0x12345678 }) Line.idle) =
    some (some (0x34, false, false, false)) := by decide +kernel
theorem test_tx_abort : beatOf
    (start (fun r => { framing .crc3 [0, 0, 0xaa] r with txNull := true, txCrc := 0xffffff55 }) Line.idle) =
    some (some (0x55, false, true, true)) := by decide +kernel
theorem test_tx_abort_keeps_nts : curOf (fun r => (r.nts, r.frState, r.unacked))
    (start (fun r => { framing .crc3 [0, 0, 0xaa] r with txNull := true }) Line.idle) = some (0, .idle, []) := by
  decide +kernel
theorem test_tx_complete : curOf (fun r => (r.slots, r.unacked, r.nts))
    (start (fun r => { framing .crc3 [0, 0, 0xaa] r with txCrc := 0xaa }) Line.idle) =
    some ([slot0, Slot.free], [0], 1) := by decide +kernel
-- V-TX-8, tick 13: an ACK and a completion in one tick
theorem test_ack_and_complete : curOf (fun r => (r.slots.map Slot.occ, r.unacked, r.nts, r.lastAcked))
    (start (fun r => { framing .crc3 [0, 1, 0xbb] (one r) with txCrc := 0xbc }) (Line.idle.ack 0)) =
    some ([false, true], [1], 2, 0) := by decide +kernel

/-! ### Replay controller -/

-- V-TX-7, R192 to R199 examples
theorem test_replay_enter : curOf (fun r => (r.rcState, r.rpPass, r.rpId, r.replayReq, r.replayCount))
    (start (fun r => { one r with replayReq := true }) (Line.idle.upl 0xcc)) = some (.replaying, true, 0, false, 1) := by
  decide +kernel
theorem test_replay_drop : curOf (fun r => (r.replayReq, r.rcState, r.replayCount))
    (start (fun r => { r with replayReq := true }) Line.idle) = some (false, .idle, 0) := by decide +kernel
theorem test_replay_exit : curOf (fun r => (r.rcState, r.rpPass))
    (start (fun r => { r with rcState := .replaying, rpPass := true }) Line.idle) = some (.idle, false) := by decide +kernel
theorem test_replay_passend : curOf (fun r => (r.rcState, r.rpPass)) (start (passing 2) Line.idle) =
    some (.replaying, false) := by decide +kernel
theorem test_replay_send : curOf (fun r => (r.rpBusy, r.rpBytes)) (start (passing 1) Line.idle) = some (true, f1) := by
  decide +kernel
theorem test_replay_again : curOf (fun r => (r.rpPass, r.rpId, r.replayCount))
    (start (fun r => { passing 2 r with rpPass := false, replayReq := true, replayCount := 3 }) Line.idle) =
    some (true, 0, 0) := by decide +kernel
theorem test_replay_skip : curOf (·.rpId)
    (start (fun r => { passing 0 r with unacked := [1], slots := [{ slot0 with occ := false }, slot1] }) Line.idle) =
    some 1 := by decide +kernel
theorem test_replay_next : curOf (fun r => (r.rpId, r.rpBusy, r.rpBytes))
    (start (fun r => { passing 0 r with rpBusy := true, rpBytes := f0, rpPos := 6 }) Line.idle) = some (1, false, []) := by
  decide +kernel

/-! ### Acknowledgements and the replay timer -/

-- R205 to R210 examples
theorem test_ack_further_down : nxtOf (fun r => (r.unacked, r.lastAcked)) (.txAck 1)
    (start (fun r => { r with unacked := [0, 1, 2] }) Line.idle) = some ([2], 1) := by decide
theorem test_ack_frees_slots : curOf (fun r => r.slots.map Slot.occ) (start two (Line.idle.ack 1)) =
    some [false, false] := by decide +kernel
theorem test_ack_ignored : curOf (fun r => (r.unacked, r.lastAcked)) (start one (Line.idle.ack 5)) =
    some ([0], 4095) := by decide +kernel
theorem test_nak : curOf (·.replayReq) (start two (Line.idle.nak 0)) = some true := by decide +kernel
theorem test_nak_ignored : curOf (·.replayReq) (start (passing 0) (Line.idle.nak 4095)) = some false := by decide +kernel
theorem test_timeout : curOf (fun r => (r.replayTimer, r.replayReq))
    (start (fun r => { one r with replayTimer := 15 }) Line.idle) = some (0, true) := by decide +kernel
theorem test_no_timeout_before : curOf (fun r => (r.replayTimer, r.replayReq))
    (start (fun r => { one r with replayTimer := 14 }) Line.idle) = some (15, false) := by decide +kernel

/-! ### Receive engine -/

-- R221 example, V-RX-7, V-RX-19 to V-RX-21, R223, R224
theorem test_rx_start : curOf (fun r => (r.rxStage, r.rxState)) (start id (Line.idle.rxs 0)) = some ([0], .receiving) := by
  decide +kernel
theorem test_rx_start_one_beat : nxtOf (fun r => (r.rxState, r.rxTrunc)) (.rxStart true true 0) (start id Line.idle) =
    some (.validating, true) := by decide
theorem test_rx_stray : curOf (fun r => (r.rxStage, r.rxState)) (start id (Line.idle.rx 0x55)) = some ([], .idle) := by
  decide +kernel
theorem test_rx_data_sof : curOf (fun r => (r.rxStage, r.rxState))
    (start (fun r => { r with rxState := .receiving, rxStage := [0] }) (Line.idle.rxs 0)) = some ([0, 0], .receiving) := by
  decide +kernel
theorem test_rx_oversize : nxtOf (fun r => (r.rxStage.length, r.rxOversize)) (.rxData 1)
    (start (fun r => { r with rxState := .receiving, rxStage := List.replicate 10 0 }) Line.idle) = some (10, true) := by
  decide
theorem test_rx_end : curOf (fun r => (r.rxStage, r.rxTrunc, r.rxState))
    (start (fun r => { r with rxState := .receiving, rxStage := f0.take 6 }) (Line.idle.rxe 0xaa)) =
    some (f0, false, .validating) := by decide +kernel
theorem test_rx_trunc : nxtOf (fun r => (r.rxStage.length, r.rxTrunc, r.rxState)) (.rxTrunc 0x55)
    (start (fun r => { r with rxState := .receiving, rxStage := f0.take 6 }) (Line.idle.rxt 0x55)) =
    some (7, true, .validating) := by decide
-- V-RX-1, V-RX-12, V-RX-13
theorem test_rx_accept : curOf (fun r => (r.nrs, r.rxq, r.rxState, r.ctlPending, r.ctlPositive, r.ctlId))
    (start (validating 1 f1) Line.idle) = some (2, [⟨1, [0xbb]⟩], .idle, true, true, 1) := by decide +kernel
theorem test_rx_accept_full : curOf (fun r => (r.rxq.length, r.rxState, r.ctlPending))
    (start (fun r => validating 1 f1 { r with rxq := [⟨0, [0xaa]⟩] }) Line.idle) = some (2, .waitspace, false) := by
  decide +kernel
theorem test_rx_accept_and_pop : curOf (fun r => (r.rxq, r.rxState, r.ctlId))
    (start (fun r => validating 1 f1 { r with rxq := [⟨0, [0xaa]⟩] }) Line.idle.pop) =
    some ([⟨1, [0xbb]⟩], .idle, 1) := by decide +kernel
-- V-RX-14, V-RX-15, V-RX-4, V-RX-18
theorem test_rx_dup_2048 : curOf (fun r => (r.nrs, r.ctlPending, r.ctlPositive, r.ctlId))
    (start (validating 1 [0x08, 0x01, 0x11, 0x00, 0x00, 0x00, 0x1a]) Line.idle) = some (1, true, true, 0) := by
  decide +kernel
theorem test_rx_gap_2049 : curOf (fun r => (r.nrs, r.ctlPending, r.ctlPositive, r.ctlId, r.nakScheduled))
    (start (validating 1 [0x08, 0x00, 0x22, 0x00, 0x00, 0x00, 0x2a]) Line.idle) = some (1, true, false, 0, true) := by
  decide +kernel
theorem test_rx_corrupt : curOf (fun r => (r.nrs, r.rxq, r.ctlPositive, r.ctlId, r.nakScheduled))
    (start (validating 1 [0x00, 0x01, 0xbb, 0xff, 0xff, 0xff, 0x43]) Line.idle) = some (1, [], false, 0, true) := by
  decide +kernel
theorem test_rx_corrupt_suppressed : curOf (fun r => (r.ctlPending, r.rxState, r.rxStage))
    (start (fun r => validating 1 [0x00] { r with nakScheduled := true }) Line.idle) = some (false, .idle, []) := by
  decide +kernel
-- R236 example, V-RX-23, V-RX-25, V-RX-26, V-RX-27, V-RX-28
def full (r : Regs) : Regs := { r with nrs := 2, rxState := .waitspace, rxq := [⟨0, [0xaa]⟩, ⟨1, [0xbb]⟩] }
theorem test_rx_space : curOf (fun r => (r.rxState, r.ctlPending, r.ctlPositive, r.ctlId))
    (start (fun r => { full r with rxq := [⟨1, [0xbb]⟩] }) Line.idle) = some (.idle, true, true, 1) := by decide +kernel
theorem test_rx_waits : curOf (fun r => (r.rxState, r.ctlPending, r.rxq.length)) (start full Line.idle.pop) =
    some (.waitspace, false, 1) := by decide +kernel
theorem test_ctl_send : outOf (fun o => (o.ctlTxValid, o.ctlTxPositive, o.ctlTxId))
    (start (fun r => { r with ctlPending := true, ctlPositive := true, ctlId := 5 }) Line.idle) = some (true, true, 5) := by
  decide +kernel
theorem test_ctl_send_stalled : curOf (·.ctlPending) (start (fun r => { r with ctlPending := true }) Line.idle.cstall) =
    some true := by decide +kernel
theorem test_keepalive : curOf (fun r => (r.ctlPending, r.ctlPositive, r.ctlId, r.ackTimer))
    (start (fun r => { r with nrs := 3, ackTimer := 7 }) Line.idle) = some (true, true, 2, 0) := by decide +kernel
theorem test_keepalive_keeps_pending : curOf (fun r => (r.ctlPending, r.ctlPositive, r.ctlId, r.ackTimer))
    (start (fun r => { r with nrs := 3, ackTimer := 7, ctlPending := true, ctlId := 2 }) Line.idle.cstall) =
    some (true, false, 2, 0) := by decide +kernel
theorem test_pop : curOf (·.rxq) (start (fun r => { r with rxq := [⟨0, [0xaa]⟩, ⟨1, [0xbb]⟩] }) Line.idle.pop) =
    some [⟨1, [0xbb]⟩] := by decide +kernel
theorem test_pop_empty : curOf (·.rxq) (start id Line.idle.pop) = some [] := by decide +kernel

/-! ### Synchronizer, V-SY-1, V-SY-2, V-SY-7 -/

theorem test_link_down : curOf id (start full (Line.idle.pop.down)) = some (Regs.reset Config.d59) := by decide +kernel
theorem test_link_down_outputs : outOf id (start full Line.idle.down) = some PortOut.zero := by decide +kernel
theorem test_idle_tick : curOf id (start id Line.idle) = some { Regs.reset Config.d59 with ackTimer := 1 } := by
  decide +kernel
theorem test_status : outOf (fun o => (o.stTxSeq, o.stRbCount, o.stRbFull, o.stRbEmpty)) (start one Line.idle) =
    some (1, 1, false, false) := by decide +kernel

/-! ### Witnesses: states and operands that meet the hypotheses of each statement

A statement whose only hypothesis is that the link is up, or that has none, is met by every idle state. -/

theorem witness_link_up : (start id Line.idle).line.live = true := by decide

/-- `test_store_first_free` meets the second clause of StoreTakesFirstFreeSlot, these meet the first: an id that is held, and a
full buffer. -/
theorem witness_StoreTakesFirstFreeSlot :
    let s := start one Line.idle
    s.line.live = true ∧ s.cur.slots.length = s.par.nSlots ∧ (∃ sl ∈ s.cur.slots, sl.occ = true ∧ sl.id = 0) ∧
      (∀ sl ∈ s.cur.slots, ¬ (sl.occ = true ∧ sl.id = 1)) ∧ occCount s.cur.slots ≠ s.par.nSlots := by decide
theorem witness_StoreTakesFirstFreeSlot_full :
    let s := start two Line.idle
    s.line.live = true ∧ s.cur.slots.length = s.par.nSlots ∧ occCount s.cur.slots = s.par.nSlots := by decide

theorem witness_DeleteClearsOccupied :
    let s := start two Line.idle
    s.line.live = true ∧ s.dels = [] ∧ s.cur.slotIdsDistinct := by decide

/-- V-RB-10: both ports name id 7. -/
theorem witness_DeleteArbitration :
    let s := (start one Line.idle).request fun q => { q with delA := rangeWord true 7 7, delB := reqWord true 7 }
    s.req.delA = rangeWord true 7 7 ∧ s.req.delB = reqWord true 7 ∧ s.line.live = true ∧ s.dels = [] ∧
      (7, DelCause.acknowledgement) ∈ (s.recordDel 7 .acknowledgement).dels := by decide

theorem witness_SendStreamsTheStoredFrame_start :
    let s := start two Line.idle
    s.line.live = true ∧ s.cur.slots[1]? = some slot1 ∧ slot1.occ = true ∧ slot1.id = 1 ∧
      (∀ c ∈ s.cur.slots.take 1, ¬ (c.occ = true ∧ c.id = 1)) ∧
      (∀ sl ∈ s.cur.slots, ¬ (sl.occ = true ∧ sl.id = 2)) := by decide
theorem witness_SendStreamsTheStoredFrame_beat :
    let s := start (fun r => { passing 0 r with rpBusy := true, rpBytes := f0, rpPos := 5 }) Line.idle
    let u := start (fun r => { passing 0 r with rpBusy := true, rpBytes := f0, rpPos := 6 }) Line.idle
    let v := start (fun r => { passing 0 r with rpBusy := true, rpBytes := f0, rpPos := 0 }) Line.idle.stall
    (s.line.live = true ∧ s.cur.rpBusy = true ∧ s.cur.rpBytes[s.cur.rpPos]? = some 0 ∧ s.line.txReady = true ∧
      s.cur.rpPos ≠ s.cur.rpBytes.length - 1) ∧
    (u.line.live = true ∧ u.cur.rpBusy = true ∧ u.cur.rpBytes[u.cur.rpPos]? = some 0xaa ∧ u.line.txReady = true ∧
      u.cur.rpPos = u.cur.rpBytes.length - 1) ∧
    (v.line.live = true ∧ v.cur.rpBusy = true ∧ v.cur.rpBytes[v.cur.rpPos]? = some 0 ∧ v.line.txReady = false) := by decide

theorem witness_SendAllIsThePass :
    let s := start (passing 0) Line.idle
    s.line.live = true ∧ s.reqDrop = false ∧ s.req.send = 0 := by decide

theorem witness_StartOffersHeaderByte :
    let s := start one (Line.idle.up 0xbb)
    let u := start one (Line.idle.up 0xbb).stall
    s.line.live = true ∧ s.cur.rcState = .idle ∧ s.cur.replayReq = false ∧ s.cur.frState = .idle ∧
      (s.cur.nts - s.cur.lastAcked).toNat < 2048 ∧ occCount s.cur.slots < s.par.nSlots ∧
      upWordValid s.line.uw = true ∧ s.line.txReady = true ∧ u.cur = s.cur ∧ u.line.live = true ∧
      upWordValid u.line.uw = true ∧ u.line.txReady = false := by decide
/-- The window's boundary: 2047 ids ahead. -/
theorem witness_StartOffersHeaderByte_window :
    let s := start (fun r => { r with nts := 2046 }) (Line.idle.up 0xbb)
    s.line.live = true ∧ s.cur.rcState = .idle ∧ s.cur.replayReq = false ∧ s.cur.frState = .idle ∧
      (s.cur.nts - s.cur.lastAcked).toNat = 2047 ∧ occCount s.cur.slots < s.par.nSlots ∧
      upWordValid s.line.uw = true := by decide

/-- Every state of the framer, with the link ready and with the link stalled: the `tx_ready` clauses of the statements below. -/
theorem witness_framer (f : FrState) (st : List Byte) :
    let s := start (framing f st) Line.idle
    let u := start (framing f st) Line.idle.stall
    s.line.live = true ∧ s.cur.rcState = .idle ∧ s.cur.frState = f ∧ s.line.txReady = true ∧
      u.line.live = true ∧ u.cur.rcState = .idle ∧ u.cur.frState = f ∧ u.line.txReady = false :=
  ⟨rfl, rfl, rfl, rfl, rfl, rfl, rfl, rfl⟩
theorem witness_Hdr1OffersHeaderByte :
    let s := start (framing .hdr1 [0]) Line.idle
    s.line.live = true ∧ s.cur.rcState = .idle ∧ s.cur.frState = .hdr1 ∧ s.line.txReady = true := by decide
theorem witness_DataPassesThrough :
    let s := start (framing .payload [0, 0, 1, 2]) Line.idle
    s.line.live = true ∧ s.cur.rcState = .idle ∧ s.cur.frState = .payload ∧ s.line.txReady = true ∧
      s.cur.txStage.length + 1 ≠ s.par.maxPayload + 2 := by decide
/-- Byte number MAX_PAYLOAD: TX.DATA with `up_last`, TX.OVERLEN without, TX.NULLIFY if none is offered. -/
theorem witness_NullificationComplementsTrailer :
    let s := start (framing .payload [0, 0, 1, 2, 3]) Line.idle
    s.line.live = true ∧ s.cur.rcState = .idle ∧ s.cur.frState = .payload ∧ s.line.txReady = true ∧
      s.cur.txStage.length + 1 = s.par.maxPayload + 2 := by decide
theorem witness_CrcBytesInOrder :
    let r (f : FrState) := start (fun r => { framing f [0, 0] r with txCrc := 0x12345678 }) Line.idle
    (r .crc0).cur.frState = .crc0 ∧ (0x12 : Byte) = (r .crc0).cur.txCrc.extractLsb' 24 8 ∧
    (r .crc1).cur.frState = .crc1 ∧ (0x34 : Byte) = (r .crc1).cur.txCrc.extractLsb' 16 8 ∧
    (r .crc2).cur.frState = .crc2 ∧ (0x56 : Byte) = (r .crc2).cur.txCrc.extractLsb' 8 8 := by decide
theorem witness_AbortEndsNullifiedFrame :
    let s := start (fun r => { framing .crc3 [0, 0] r with txNull := true }) Line.idle
    s.line.live = true ∧ s.cur.rcState = .idle ∧ s.cur.frState = .crc3 ∧ s.cur.txNull = true ∧ s.line.txReady = true := by
  decide
theorem witness_CompleteEndsGoodFrame :
    let s := start (framing .crc3 [0, 0, 0xaa]) Line.idle
    s.line.live = true ∧ s.cur.rcState = .idle ∧ s.cur.frState = .crc3 ∧ s.cur.txNull = false ∧ s.line.txReady = true := by
  decide

theorem witness_PassStartsAtHead :
    let s := start (fun r => { one r with replayReq := true }) Line.idle
    let u := start (fun r => { passing 2 r with rpPass := false, replayReq := true }) Line.idle
    (s.line.live = true ∧ s.cur.replayReq = true ∧ 0 < occCount s.cur.slots ∧ s.cur.rcState = .idle ∧
      s.cur.frState = .idle) ∧
    (u.line.live = true ∧ u.cur.replayReq = true ∧ 0 < occCount u.cur.slots ∧ u.cur.rcState = .replaying ∧
      u.cur.rpBusy = false ∧ u.cur.rpPass = false) := by decide
theorem witness_PassEndsAndExits :
    let s := start (fun r => { r with replayReq := true }) Line.idle
    let u := start (fun r => { r with rcState := .replaying }) Line.idle
    let v := start (passing 2) Line.idle
    (s.line.live = true ∧ s.cur.replayReq = true ∧ s.cur.rcState = .idle ∧ s.cur.frState = .idle ∧
      occCount s.cur.slots = 0) ∧
    (u.line.live = true ∧ u.cur.rcState = .replaying ∧ u.cur.rpBusy = false ∧ occCount u.cur.slots = 0) ∧
    (v.line.live = true ∧ v.cur.rcState = .replaying ∧ v.cur.rpBusy = false ∧ 0 < occCount v.cur.slots ∧
      v.cur.rpPass = true ∧ v.cur.rpId = v.cur.nts) := by decide
theorem witness_CursorWalksTheFrames :
    let s := start (passing 1) Line.idle
    let u := start (fun r => { passing 0 r with slots := [{ slot0 with occ := false }, slot1] }) Line.idle
    let v := start (fun r => { passing 0 r with rpBusy := true, rpBytes := f0, rpPos := 6 }) Line.idle
    (s.line.live = true ∧ s.cur.rcState = .replaying ∧ s.cur.rpBusy = false ∧ 0 < occCount s.cur.slots ∧
      s.cur.rpPass = true ∧ s.cur.rpId ≠ s.cur.nts ∧ ∃ sl ∈ s.cur.slots, sl.occ = true ∧ sl.id = s.cur.rpId) ∧
    (u.line.live = true ∧ u.cur.rcState = .replaying ∧ u.cur.rpBusy = false ∧ 0 < occCount u.cur.slots ∧
      u.cur.rpPass = true ∧ u.cur.rpId ≠ u.cur.nts ∧ ∀ sl ∈ u.cur.slots, ¬ (sl.occ = true ∧ sl.id = u.cur.rpId)) ∧
    (v.line.live = true ∧ v.cur.rpBusy = true ∧ v.cur.rpPos + 1 = v.cur.rpBytes.length ∧ v.line.txReady = true) := by decide

theorem witness_AckReleasesUpToId :
    let s := start (fun r => { r with unacked := [0, 1, 2] }) Line.idle
    s.line.live = true ∧ s.cur.unacked = [0] ++ 1 :: [2] ∧ (1 : Seq) ∉ ([0] : List Seq) := by decide
theorem witness_NakAsksForReplay :
    let s := start two Line.idle
    s.line.live = true ∧ ¬ (s.cur.rcState = .replaying ∧ s.cur.rpPass = true) ∧ s.cur.replayReq = false := by decide
theorem witness_TimeoutAsksForReplay :
    let s := start (fun r => { one r with replayTimer := 15 }) Line.idle
    s.line.live = true ∧ s.nxt.unacked ≠ [] ∧ s.cur.unacked ≠ [] ∧ s.ackEffective = false ∧ s.passLive = false ∧
      s.passStart = false ∧ s.par.replayLimit = s.cur.replayTimer + 1 := by decide

theorem witness_StartOrStrayByte :
    let s := start id Line.idle
    s.line.live = true ∧ s.cur.rxState = .idle := by decide
theorem witness_FrameBytesCaptured :
    let s (n : Nat) := start (fun r => { r with rxState := .receiving, rxStage := List.replicate n 0 }) Line.idle
    (s 9).line.live = true ∧ (s 9).cur.rxState = .receiving ∧ (s 9).cur.rxStage.length < (s 9).par.maxPayload + 6 ∧
      (s 10).line.live = true ∧ (s 10).cur.rxState = .receiving ∧
      (s 10).par.maxPayload + 6 ≤ (s 10).cur.rxStage.length := by decide

/-- Received frames with no payload, header bytes `b0`, `b1` and a good trailer under `CRC_T`. -/
def good (b0 b1 : Byte) : List Byte := b0 :: b1 :: ([] ++ be32 (crcOf .toySum (b0 :: b1 :: [])))

theorem witness_AcceptDelivers :
    let s := start (validating 1 (good 0 1)) Line.idle
    let u := start (fun r => validating 1 (good 0 1) { r with rxq := [⟨0, [0xaa]⟩] }) Line.idle
    (s.line.live = true ∧ s.cur.rxState = .validating ∧ s.cur.rxTrunc = false ∧ s.cur.rxOversize = false ∧
      s.cur.rxStage = good 0 1 ∧ s.par.crc = .toySum ∧ s.cur.nrs = (0 : Byte).extractLsb' 0 4 ++ (1 : Byte) ∧
      s.nxt.rxq.length + 1 ≠ s.par.rxCap) ∧
    (u.line.live = true ∧ u.cur.rxState = .validating ∧ u.cur.rxStage = good 0 1 ∧ u.cur.nrs = 1 ∧
      u.nxt.rxq.length + 1 = u.par.rxCap) := by decide
/-- Distances 1 and 2048 are Duplicate, 2049 and 4095 are Gap. -/
theorem witness_DuplicateReacknowledged :
    let s (b0 b1 : Byte) := start (validating 1 (good b0 b1)) Line.idle
    let d (b0 b1 : Byte) := ((s b0 b1).cur.nrs - (b0.extractLsb' 0 4 ++ b1 : Seq)).toNat
    (s 0 0).line.live = true ∧ (s 0 0).cur.rxState = .validating ∧ (s 0 0).cur.rxTrunc = false ∧
      (s 0 0).cur.rxOversize = false ∧ (s 0 0).cur.rxStage = good 0 0 ∧ d 0 0 = 1 ∧ d 8 1 = 2048 ∧
      (s 8 1).cur.rxStage = good 8 1 := by decide
theorem witness_GapAndCorruptAnsweredByNak :
    let s (b0 b1 : Byte) := start (validating 1 (good b0 b1)) Line.idle
    let d (b0 b1 : Byte) := ((s b0 b1).cur.nrs - (b0.extractLsb' 0 4 ++ b1 : Seq)).toNat
    let u := start (validating 1 [0, 1, 0, 0, 0]) Line.idle
    let v := start (validating 1 (0 :: 1 :: ([] ++ be32 2))) Line.idle
    (s 8 0).line.live = true ∧ (s 8 0).cur.rxState = .validating ∧ (s 8 0).cur.rxTrunc = false ∧
      (s 8 0).cur.rxOversize = false ∧ (s 8 0).cur.rxStage = good 8 0 ∧ d 8 0 = 2049 ∧ d 0 2 = 4095 ∧
      u.cur.rxState = .validating ∧ u.cur.rxStage.length = 5 ∧
      v.cur.rxState = .validating ∧ v.cur.rxStage = 0 :: 1 :: ([] ++ be32 2) ∧ (2 : Crc) ≠ crcOf v.par.crc [0, 1] := by
  decide
theorem witness_SpaceSendsDeferredAck :
    let s := start (fun r => { full r with rxq := [⟨1, [0xbb]⟩] }) Line.idle
    let u := start full Line.idle
    s.line.live = true ∧ s.cur.rxState = .waitspace ∧ s.cur.rxq.length < s.par.rxCap ∧
      u.line.live = true ∧ u.cur.rxState = .waitspace ∧ u.par.rxCap ≤ u.cur.rxq.length := by decide
theorem witness_PendingMessageHandedOver :
    let s := start (fun r => { r with ctlPending := true }) Line.idle
    let u := start (fun r => { r with ctlPending := true }) Line.idle.cstall
    s.line.live = true ∧ s.cur.ctlPending = true ∧ s.line.ctlTxReady = true ∧
      u.line.live = true ∧ u.cur.ctlPending = true ∧ u.line.ctlTxReady = false := by decide
theorem witness_KeepaliveAcknowledges :
    let s := start (fun r => { r with ackTimer := 7 }) Line.idle
    let u := start (fun r => { r with ackTimer := 7, ctlPending := true }) Line.idle
    s.line.live = true ∧ s.schedd = false ∧ s.cur.rxState ≠ .waitspace ∧ s.par.ackLimit = s.cur.ackTimer + 1 ∧
      s.cur.ctlPending = false ∧ u.line.live = true ∧ u.schedd = false ∧ u.cur.rxState ≠ .waitspace ∧
      u.par.ackLimit = u.cur.ackTimer + 1 ∧ u.cur.ctlPending = true := by decide

/-- An operation whose condition does not hold, and a tick with the link down. -/
theorem witness_NothingOutsideItsCondition :
    let s := start one Line.idle
    s.line.live = true ∧ s.selects .txHdr1 = false ∧ (start one Line.idle.down).line.live = false ∧
      anyTick .txHdr1 = false := by decide

theorem witness_StepRunsDecodedWord :
    let s := start one (Line.idle.ack 0)
    let u := start one Line.idle.down
    let v := s.request fun q => { q with store := reqWord true 1 }
    s.par.wf = true ∧ s.line.live = true ∧ decode s.decodeCtx (.ctl s.line.cw) = .instr (.txAck 0) ∧
      u.par.wf = true ∧
      decode u.decodeCtx (.link (linkWord u.line.rst u.line.linkUp)) = .instr (.linkDown false false) ∧
      decode v.decodeCtx (.store v.req.store v.req.storeBytes) = .instr (.rbStore 1 []) := by decide
/-- An operation selected by a word between others, and operations selected by conditions, each with a state in which it is not. -/
theorem witness_StepRunsDecodedWord_selected :
    let s := start one (Line.idle.ack 0)
    s.beginTick.selected = [.status, .rbContains 0] ++ .txAck 0 :: [] := by decide
theorem witness_StepRunsDecodedWord_conditions :
    let s := start (passing 0) Line.idle
    let u := start (fun r => { r with rxState := .waitspace }) Line.idle
    let v := start (framing .hdr1 [0]) Line.idle
    let w := start (fun r => { one r with replayTimer := 15, ackTimer := 7 }) Line.idle
    (s.cur.busyInPass ∧ .txReplaySend ∈ s.replayOps ∧ s.selects .txReplaySkip = false) ∧
      (u.cur.busyInPass ∧ .rxSpace ∈ u.rxOps) ∧ (v.cur.busyInPass ∧ .txHdr1 ∈ v.framerOps) ∧
      .txTimeout ∈ w.expired ∧ .rxKeepalive ∈ w.expired := by decide

theorem witness_EveryTickHasANextState :
    State.reset.par.wf = true ∧ Params.wf { Config.d59 with nSlots := 0 } = false := by decide
theorem witness_LinkDownTickResets :
    let s := start full Line.idle.down
    s.par.wf = true ∧ s.line.linkUp = false := by decide

/-- Every statement about a tick with the link up, in a state where an ACK and a completion fall together. -/
def busyTick : State := start (fun r => { framing .crc3 [0, 1, 0xbb] (one r) with txCrc := 0xbc }) (Line.idle.ack 0)

theorem witness_tick : busyTick.line.live = true ∧ ∃ t, step busyTick = .next t :=
  ⟨by decide, next_of_isSome _ (by decide +kernel)⟩
/-- FramerMoves, StreamOutputs: a tick in each state of the framer. -/
theorem witness_FramerMoves (f : FrState) :
    let s := start (framing f [0, 0]) Line.idle
    s.line.live = true ∧ s.cur.rcState = .idle ∧ s.cur.frState = f ∧ ∃ t, step s = .next t :=
  ⟨rfl, rfl, rfl, next_of_isSome _ (by cases f <;> decide +kernel)⟩
/-- ReplayMoves, StreamOutputs: a tick of a pass, with a frame being re-sent and without. -/
theorem witness_ReplayMoves :
    let s := start (fun r => { passing 0 r with rpBusy := true, rpBytes := f0, rpPos := 6 }) Line.idle
    let u := start (passing 0) Line.idle
    s.line.live = true ∧ s.cur.rcState = .replaying ∧ s.cur.rpBusy = true ∧
      s.cur.rpBytes[s.cur.rpPos]? = some 0xaa ∧ u.line.live = true ∧ u.cur.rcState = .replaying ∧
      u.cur.rpBusy = false ∧ (∃ t, step s = .next t) ∧ ∃ t, step u = .next t :=
  ⟨by decide, by decide, by decide, by decide, by decide, by decide, by decide,
    next_of_isSome _ (by decide +kernel), next_of_isSome _ (by decide +kernel)⟩
/-- ReceiverMoves, OtherOutputs: a tick in each state of the receive engine. -/
theorem witness_ReceiverMoves (x : RxState) :
    let s := start (fun r => { r with rxState := x, rxStage := f0, rxq := [⟨1, [0xbb]⟩] }) Line.idle
    s.line.live = true ∧ s.cur.rxState = x ∧ ∃ t, step s = .next t :=
  ⟨rfl, rfl, next_of_isSome _ (by cases x <;> decide +kernel)⟩
/-- The clauses of FramerMoves, ReplayMoves and ReceiverMoves for a tick with the link down. -/
theorem witness_moves_down :
    let s := start full Line.idle.down
    s.line.live = false ∧ ∃ t, step s = .next t := ⟨by decide, next_of_isSome _ (by decide +kernel)⟩
theorem witness_PendingControlAfterTick :
    let s := start (validating 1 f1) Line.idle
    let u := start (fun r => { r with ackTimer := 7 }) Line.idle
    s.line.live = true ∧ s.scheduledNow = some (true, 1) ∧ u.line.live = true ∧ u.keepsAlive = true ∧
      u.cur.ctlPending = false ∧ busyTick.scheduledNow = none ∧ busyTick.keepsAlive = false := by decide

/-- Frames of every class, V-RX-1 to V-RX-6. -/
theorem witness_Classification :
    let s := start (validating 1 (good 0 1)) Line.idle
    s.cur.rxStage = 0 :: 1 :: ([] ++ be32 1) ∧ s.cur.rxTrunc = false ∧ s.cur.rxOversize = false ∧
      (start (validating 1 [0]) Line.idle).cur.rxStage.length < 6 ∧
      (start (validating 1 (frameBytes 1 [0xbb] (~~~ crcOf .toySum (header 1 ++ [0xbb])))) Line.idle).cur.rxStage =
        [0x00, 0x01, 0xbb, 0xff, 0xff, 0xff, 0x43] := by decide

/-- The invariant holds in a state that no reset gives: a frame outstanding, another one completing. -/
theorem busyTick_inv : busyTick.Inv where
  build := by decide
  consistent :=
    { consecutive := by decide
      matched := ⟨by decide, fun i hi => by
          have h : i = 0 := by simpa [busyTick, start, framing, one] using hi
          subst h; decide, by decide, by decide⟩
      distinct := by decide
      room := by decide
      framerIdle := by decide
      busy := by decide }
  frames := by decide
  window := by decide
  framer := by decide
  pass := by decide
  receiver := by decide
  timers := by decide

theorem witness_SlotsAfterTick :
    busyTick.Inv ∧ busyTick.line.live = true ∧ (∃ t, step busyTick = .next t) ∧
      busyTick.cur.slots[0]? = some slot0 ∧ slot0.occ = true ∧ busyTick.cur.slots[1]? = some Slot.free ∧
      Slot.free.occ = false ∧ busyTick.ackEffective = true ∧ busyTick.completes = true :=
  ⟨busyTick_inv, by decide, witness_tick.2, by decide, by decide, by decide, by decide, by decide, by decide⟩
theorem witness_InvKeptByStep : busyTick.Inv ∧ ∃ t, step busyTick = .next t := ⟨busyTick_inv, witness_tick.2⟩
theorem witness_InvAtReset : Config.d59.wf = true := by decide
theorem witness_InvariantsHoldAlways :
    Config.d59.wf = true ∧ ∃ t, ticks 4 (State.resetWith Config.d59 (submitLines [0xaa])) = .next t :=
  ⟨by decide, next_of_isSome _ (by decide +kernel)⟩

/-- The same receive side under two transmit sides, and the same transmit side over two receive sides. -/
theorem witness_EnginesOwnDisjointState :
    let s := start id Line.idle
    let u := start one Line.idle
    let v := start full Line.idle
    s.par = u.par ∧ s.cur.sameReceive u.cur ∧ s.line.sameReceive u.line ∧ s.cur ≠ u.cur ∧
      s.par = v.par ∧ s.cur.sameTransmit v.cur ∧ s.line.sameTransmit v.line ∧ s.cur ≠ v.cur := by decide
theorem witness_EnginesOwnDisjointState_steps :
    (∃ t, step (start id Line.idle) = .next t) ∧ (∃ t, step (start one Line.idle) = .next t) ∧
      ∃ t, step (start full Line.idle) = .next t :=
  ⟨next_of_isSome _ (by decide +kernel), next_of_isSome _ (by decide +kernel), next_of_isSome _ (by decide +kernel)⟩

/-- The same state with other bits in its free slot and in the idle registers. -/
def busyTickToo : State :=
  { busyTick with cur :=
      { busyTick.cur with slots := [slot0, { Slot.free with id := 9, bytes := [1] }], rpId := 3, rpPos := 2, ctlId := 8 } }

theorem busyTickToo_inv : busyTickToo.Inv where
  build := by decide
  consistent :=
    { consecutive := by decide
      matched := ⟨by decide, fun i hi => by
          have h : i = 0 := by simpa [busyTickToo, busyTick, start, framing, one] using hi
          subst h; decide, by decide, by decide⟩
      distinct := by decide
      room := by decide
      framerIdle := by decide
      busy := by decide }
  frames := by decide
  window := by decide
  framer := by decide
  pass := by decide
  receiver := by decide
  timers := by decide

theorem witness_UnspecifiedValuesInvisible :
    busyTick.Inv ∧ busyTickToo.Inv ∧ busyTick.par = busyTickToo.par ∧ busyTick.line = busyTickToo.line ∧
      busyTick.cur.seen = busyTickToo.cur.seen ∧ busyTick.cur ≠ busyTickToo.cur ∧
      (∃ t, step busyTick = .next t) ∧ ∃ t, step busyTickToo = .next t :=
  ⟨busyTick_inv, busyTickToo_inv, by decide, by decide, by decide, by decide, witness_tick.2,
    next_of_isSome _ (by decide +kernel)⟩

theorem witness_DecodeInvertsEncode :
    (Instr.txAck 5).wf Config.d59 = true ∧ ctx.admits (.txAck 5) = true ∧
      encode (.txAck 5) = some (.ctl 0b11000000000101#14) ∧
      (Instr.linkDown false false).wf Config.d59 = true ∧ ctx.admits (.linkDown false false) = true ∧
      encode (.linkDown false false) = some (.link 0#2) := by decide

end Sys2Proof.Tests
end

section
namespace Sys2Proof.Machine

/-! ## What a tick writes, register by register

One definition per register and writer, over the start-of-tick registers and the input line; `old` is the value the register
has when the writer's turn comes (20_memory.md R61).  `State.liveRegs` puts them together, and `step_of_live` says that these
are the registers after a tick. -/

/-! ### The replay controller, R192 to R201 -/

/-- R194: the pass is left because nothing is stored. -/
def State.passExits (s : State) : Bool := s.replayWaiting && s.rbEmpty

/-- R195. -/
def State.passEnds (s : State) : Bool := s.passBetween && s.cur.rpId == s.cur.nts

/-- R196. -/
def State.passSends (s : State) : Bool :=
  s.passBetween && s.cur.rpId != s.cur.nts && (find s.cur.slots s.cur.rpId).isSome

/-- R198. -/
def State.passSkips (s : State) : Bool :=
  s.passBetween && s.cur.rpId != s.cur.nts && (find s.cur.slots s.cur.rpId).isNone

/-- R151, R171: a byte of a re-sent frame is offered. -/
def State.resends (s : State) : Bool := s.cur.rcState == .replaying && s.cur.rpBusy

/-- R151: the byte offered is taken. -/
def State.byteResent (s : State) : Bool := s.resends && s.line.txReady

/-- R151, R199: the byte taken is the last one. -/
def State.frameResent (s : State) : Bool := s.resends && (s.lastBeat && s.line.txReady)

/-- R150: the frame the cursor points to. -/
def State.cursorFrame (s : State) : List Byte :=
  (((find s.cur.slots s.cur.rpId).map fun k => s.cur.slots.getD k Slot.free).getD Slot.free).bytes

def State.rcStateNext (s : State) (old : RcState) : RcState :=
  if s.cur.rcState == .idle && s.passStart then .replaying else if s.passExits then .idle else old

def State.replayCountNext (s : State) (old : BitVec 2) : BitVec 2 :=
  if s.passStart then s.cur.replayCount + 1 else old

def State.rpPassNext (s : State) (old : Bool) : Bool :=
  if s.passStart then true else if s.passExits || s.passEnds then false else old

def State.rpIdNext (s : State) (old : Seq) : Seq :=
  if s.passStart then s.head else if s.frameResent || s.passSkips then seqInc s.cur.rpId else old

/-- `rp_busy` before this tick's RB.SEND. -/
def State.rpBusyKept (s : State) (old : Bool) : Bool := if s.passStart || s.frameResent then false else old

/-- `rp_pos` before this tick's RB.SEND. -/
def State.rpPosKept (s : State) (old : Nat) : Nat :=
  if s.frameResent then 0 else if s.byteResent then s.cur.rpPos + 1 else old

/-- `rp_bytes` before this tick's RB.SEND. -/
def State.rpBytesKept (s : State) (old : List Byte) : List Byte := if s.frameResent then [] else old

/-- `replay_req` before this tick's NAK and expiry (R211). -/
def State.replayReqKept (s : State) (old : Bool) : Bool := if s.passStart || s.reqDrop then false else old

/-- R171: the beat of a re-sent frame. -/
def State.replayDrives (s : State) (o : PortOut) : PortOut :=
  if s.resends then
    { o with txValid := true, txData := s.replayByte, txSof := s.cur.rpPos == 0, txEof := s.lastBeat, txBad := false }
  else o

/-- What the replay controller's operations leave of a state. -/
def State.afterReplay (s u : State) : State :=
  { u with
      nxt :=
        { u.nxt with
            rcState := s.rcStateNext u.nxt.rcState, replayCount := s.replayCountNext u.nxt.replayCount
            replayReq := s.replayReqKept u.nxt.replayReq
            replayTimer := if s.passStart then 0 else u.nxt.replayTimer
            rpPass := s.rpPassNext u.nxt.rpPass, rpId := s.rpIdNext u.nxt.rpId, rpBusy := s.rpBusyKept u.nxt.rpBusy
            rpPos := s.rpPosKept u.nxt.rpPos, rpBytes := s.rpBytesKept u.nxt.rpBytes }
      req := { u.req with send := if s.passSends then reqWord true s.cur.rpId else u.req.send }
      out := s.replayDrives u.out }

/-- Run a list of one operation. -/
theorem runAll_singleton (i : Instr) (s : State) : runAll [i] s = exec i s := by
  rw [runAll_cons]
  cases h : exec i s with
  | next t => rfl
  | fault r => rfl
  | refused r => rfl



theorem passStart_of_replaying (s : State) (hr : s.cur.rcState = .replaying) :
    s.passStart = (s.cur.replayReq && decide (0 < s.rbCount) && (!s.cur.rpBusy && !s.cur.rpPass)) := by
  have h : s.framing .idle = false := by simp [State.framing, hr]
  simp [State.passStart, h, hr]

theorem sendBeat_eq (s : State) (h : s.resends = true) :
    s.sendBeat =
      { s with
          nxt :=
            { s.nxt with
                rpBusy := s.rpBusyKept s.nxt.rpBusy, rpPos := s.rpPosKept s.nxt.rpPos
                rpBytes := s.rpBytesKept s.nxt.rpBytes }
          out := s.replayDrives s.out } := by
  have hp : s.passStart = false := by
    simp only [State.resends, Bool.and_eq_true, beq_iff_eq] at h
    simp [passStart_of_replaying s h.1, h.2]
  simp only [State.rpBusyKept, State.rpPosKept, State.rpBytesKept, State.replayDrives, State.frameResent,
    State.byteResent, h, hp]
  obtain ⟨ht, h⟩ | ⟨ht, hb, h⟩ | ⟨ht, hb, h⟩ := sendBeat_cases s
  · simp [h, ht, State.offer, State.drive]
  · simp [h, ht, hb, State.offer, State.drive, State.write]
  · simp [h, ht, hb, State.offer, State.drive, State.write]

theorem runAll_replayOps_idle (s : State) (hl : s.line.live = true) (hr : s.cur.rcState = .idle) :
    runAll s.replayOps s = .next (s.afterReplay s) := by
  have h1 : s.replayWaiting = false := by simp [State.replayWaiting, hr]
  have h2 : s.resends = false := by simp [State.resends, hr]
  simp only [State.afterReplay, State.rcStateNext, State.replayCountNext, State.replayReqKept, State.rpPassNext,
    State.rpIdNext, State.rpBusyKept, State.rpPosKept, State.rpBytesKept, State.replayDrives, State.frameResent,
    State.byteResent, State.passExits, State.passEnds, State.passSends, State.passSkips, State.passBetween, h1, h2]
  cases hp : s.passStart
  · cases hd : s.reqDrop
    · simp [State.replayOps, hr, hp, hd]
    · simp [State.replayOps, hr, hp, hd, runAll_singleton, exec, execTxReplayDrop, happens, hl, State.write]
  · simp [State.replayOps, hr, hp, runAll_singleton, exec, execTxReplayEnter, happens, hl, State.write,
      State.enterReplaying, State.startPass]

theorem runAll_replayOps_busy (s : State) (hl : s.line.live = true) (h : s.resends = true) :
    runAll s.replayOps s = .next (s.afterReplay s) := by
  obtain ⟨hr, hb⟩ : s.cur.rcState = .replaying ∧ s.cur.rpBusy = true := by simpa [State.resends] using h
  have hp : s.passStart = false := by simp [passStart_of_replaying s hr, hb]
  have hd : s.reqDrop = false := by simp [State.reqDrop, State.framing, hr]
  have hw : s.replayWaiting = false := by simp [State.replayWaiting, hb]
  have hlast : (s.lastBeat && s.line.txReady) = s.frameResent := by simp [State.frameResent, h]
  have hbeat : exec (.rbSend .beat) s = .next s.sendBeat :=
    happens_of (fun t => t.cur.rpBusy) State.sendBeat s hl hb
  have hops : s.replayOps = if s.frameResent then [.rbSend .beat, .txReplayNext] else [.rbSend .beat] := by
    simp only [State.replayOps, hr, hb, hlast, if_true]
  simp only [State.afterReplay, State.rcStateNext, State.replayCountNext, State.replayReqKept, State.rpPassNext,
    State.rpIdNext, State.passExits, State.passEnds, State.passSends, State.passSkips, State.passBetween, hp, hd, hw]
  rw [hops]
  cases hf : s.frameResent
  · simp [runAll_singleton, hbeat, sendBeat_eq s h]
  · have hnext : exec .txReplayNext s.sendBeat = .next s.sendBeat.advanceCursor := by
      rw [sendBeat_eq s h]
      refine happens_of (fun t => t.cur.rpBusy && t.lastBeat && t.line.txReady) State.advanceCursor _ hl ?_
      rw [Bool.and_assoc, Bool.and_eq_true]
      exact ⟨hb, hlast.trans hf⟩
    simp only [if_true, runAll_cons, hbeat, andThen_next, hnext]
    simp [sendBeat_eq s h, State.advanceCursor, State.write]

theorem runAll_replayOps_waiting (s : State) (hl : s.line.live = true) (hw : s.replayWaiting = true) :
    runAll s.replayOps s = .next (s.afterReplay s) := by
  obtain ⟨hr, hb⟩ : s.cur.rcState = .replaying ∧ s.cur.rpBusy = false := by simpa [State.replayWaiting] using hw
  have hs := passStart_of_replaying s hr
  have hd : s.reqDrop = false := by simp [State.reqDrop, State.framing, hr]
  have hq : s.resends = false := by simp [State.resends, hb]
  have hn : decide (0 < s.rbCount) = !s.rbEmpty := by
    cases h : s.rbEmpty <;> simp_all [State.rbEmpty, Nat.pos_iff_ne_zero]
  simp only [State.afterReplay, State.rcStateNext, State.replayCountNext, State.replayReqKept, State.rpPassNext,
    State.rpIdNext, State.rpBusyKept, State.rpPosKept, State.rpBytesKept, State.replayDrives, State.frameResent,
    State.byteResent, State.passExits, State.passEnds, State.passSends, State.passSkips, State.passBetween, hn, hw, hq, hd]
  rw [hn] at hs
  cases he : s.rbEmpty
  case true =>
    simp [State.replayOps, hr, hb, he, hs, runAll_singleton, exec, execTxReplayExit, happens, hl, hw, State.write,
      State.exitReplaying]
  case false =>
    cases hp : s.cur.rpPass
    case false =>
      cases ha : s.passStart
      · simp [State.replayOps, hr, hb, he, hp, ha]
      · simp [State.replayOps, hr, hb, he, hp, ha, runAll_singleton, exec, execTxReplayAgain, happens, hl, State.write,
          State.startPass]
    case true =>
      have hpb : s.passBetween = true := by simp [State.passBetween, hw, hp, hn, he]
      cases hi : s.cur.rpId == s.cur.nts
      case true =>
        rw [beq_iff_eq] at hi
        simp [State.replayOps, hr, hb, he, hp, hi, hs, runAll_singleton, exec, execTxReplayPassend, happens,
          hl, hpb, State.write]
      case false =>
        cases hfi : find s.cur.slots s.cur.rpId
        · simp [State.replayOps, hr, hb, he, hp, hi, hs, hfi, runAll_singleton, exec, execTxReplaySkip,
            happens, hl, hpb, State.write, bne, State.advanceCursor]
        · simp [State.replayOps, hr, hb, he, hp, hi, hs, hfi, runAll_singleton, exec, execTxReplaySend,
            happens, hl, hpb, State.request, bne]

theorem runAll_replayOps (s : State) (hl : s.line.live = true) : runAll s.replayOps s = .next (s.afterReplay s) := by
  cases hr : s.cur.rcState
  case idle => exact runAll_replayOps_idle s hl hr
  case replaying =>
    cases hb : s.cur.rpBusy
    · exact runAll_replayOps_waiting s hl (by simp [State.replayWaiting, hr, hb])
    · exact runAll_replayOps_busy s hl (by simp [State.resends, hr, hb])

end Sys2Proof.Machine
end

section
namespace Sys2Proof.Machine

/-! ### The acknowledgement logic, R204 to R208 -/

/-- R207: a NAK that asks for a replay. -/
def State.naks (s : State) : Bool :=
  ctlWordValid s.line.cw && !ctlWordPositive s.line.cw && !(s.passLive || s.passStart)

/-- `unacked` after this tick's removal, before its append (R212). -/
def State.unackedKept (s : State) (old : List Seq) : List Seq :=
  if s.ackEffective then s.cur.unacked.drop (s.cur.unacked.idxOf (ctlWordId s.line.cw) + 1) else old

def State.lastAckedNext (s : State) (old : Seq) : Seq := if s.ackEffective then ctlWordId s.line.cw else old

/-- What the incoming control message leaves of a state. -/
def State.afterControl (s u : State) : State :=
  { u with
      nxt :=
        { u.nxt with
            unacked := s.unackedKept u.nxt.unacked, lastAcked := s.lastAckedNext u.nxt.lastAcked
            replayTimer := if s.ackEffective then 0 else u.nxt.replayTimer
            replayReq := if s.naks then true else u.nxt.replayReq }
      req :=
        { u.req with
            delA :=
              if s.ackEffective then
                rangeWord true (s.cur.unacked.headD (ctlWordId s.line.cw)) (ctlWordId s.line.cw)
              else u.req.delA } }

theorem decoded_ctl (s : State) :
    s.decoded (.ctl s.line.cw) =
      if ctlWordValid s.line.cw then
        if ctlWordPositive s.line.cw then
          if s.ackEff (ctlWordId s.line.cw) then [.txAck (ctlWordId s.line.cw)] else [.txAckIgnored (ctlWordId s.line.cw)]
        else if s.passLive || s.passStart then [.txNakIgnored (ctlWordId s.line.cw)]
        else [.txNak (ctlWordId s.line.cw)]
      else [] := by
  simp only [State.decoded, decode, decodeCtl, apply_ite Decoded.toList]
  rfl

theorem runAll_control (s : State) (hl : s.line.live = true) :
    runAll (s.decoded (.ctl s.line.cw)) s = .next (s.afterControl s) := by
  rw [decoded_ctl]
  simp only [State.afterControl, State.unackedKept, State.lastAckedNext, State.ackEffective, State.naks]
  rcases Bool.eq_false_or_eq_true (ctlWordValid s.line.cw) with hv | hv
  case inr => simp [hv]
  case inl =>
    rcases Bool.eq_false_or_eq_true (ctlWordPositive s.line.cw) with hp | hp
    case inl =>
      rcases Bool.eq_false_or_eq_true (s.ackEff (ctlWordId s.line.cw)) with hc | hc
      · simp [hv, hp, runAll_singleton, exec, execTxAck, happens, hl, hc, State.request, State.write]
      · simp [hv, hp, hc, runAll_singleton, exec, execTxAckIgnored, happens]
    case inr =>
      rcases Bool.eq_false_or_eq_true (s.passLive || s.passStart) with hq | hq
      · simp [hv, hp, hq, runAll_singleton, exec, execTxNakIgnored, happens]
      · have hq' := Bool.or_eq_false_iff.mp hq
        simp [hv, hp, runAll_singleton, exec, execTxNak, happens, hl, hq', State.write]

/-! ### The framer, R171 to R184 -/

/-- R172: the first header byte is taken. -/
def State.frameStarts (s : State) : Bool := s.canStart && s.line.txReady

/-- R174: the second header byte is taken. -/
def State.headerEnds (s : State) : Bool := s.framing .hdr1 && s.line.txReady

/-- R175, R178: a payload byte is taken. -/
def State.byteTaken (s : State) : Bool := s.framing .payload && upWordValid s.line.uw && s.line.txReady

/-- R175: the byte taken is the last of the payload. -/
def State.payloadEnds (s : State) : Bool := s.byteTaken && upWordLast s.line.uw

/-- R178: the byte taken is one too many. -/
def State.overruns (s : State) : Bool := s.byteTaken && !upWordLast s.line.uw && s.atMax

/-- R176: no byte is offered. -/
def State.starves (s : State) : Bool := s.framing .payload && !upWordValid s.line.uw

/-- R177: one of the trailer bytes 0, 1, 2 is offered. -/
def State.trailing (s : State) : Bool := s.framing .crc0 || s.framing .crc1 || s.framing .crc2

/-- R179: the last byte of a nullified frame is taken. -/
def State.aborts (s : State) : Bool := s.framing .crc3 && s.cur.txNull && s.line.txReady

def State.frStateNext (s : State) (old : FrState) : FrState :=
  if s.frameStarts then .hdr1
  else if s.headerEnds then .payload
  else if s.payloadEnds || s.overruns || s.starves then .crc0
  else if s.trailing && s.line.txReady then nextCrcState s.cur.frState
  else if s.aborts || s.completes then .idle
  else old

def State.txStageNext (s : State) (old : List Byte) : List Byte :=
  if s.frameStarts then [hdrByte0 s.cur.nts]
  else if s.headerEnds then s.cur.txStage ++ [hdrByte1 s.cur.nts]
  else if s.byteTaken then s.cur.txStage ++ [upWordData s.line.uw]
  else if s.aborts || s.completes then []
  else old

def State.txCrcNext (s : State) (old : Crc) : Crc :=
  if s.payloadEnds then crcOf s.par.crc (s.cur.txStage ++ [upWordData s.line.uw])
  else if s.overruns then ~~~ crcOf s.par.crc (s.cur.txStage ++ [upWordData s.line.uw])
  else if s.starves then ~~~ crcOf s.par.crc s.cur.txStage
  else old

def State.txNullNext (s : State) (old : Bool) : Bool :=
  if s.frameStarts || s.aborts then false else if s.overruns || s.starves then true else old

def State.ntsNext (s : State) (old : Seq) : Seq := if s.completes then seqInc s.cur.nts else old

/-- `unacked` after this tick's append (R180, R212). -/
def State.unackedPushed (s : State) (old : List Seq) : List Seq := if s.completes then old ++ [s.cur.nts] else old

/-- R171: what the framer drives: the byte that is due, and `up_ready`. -/
def State.framerDrives (s : State) (o : PortOut) : PortOut :=
  if s.canStart then
    { o with txValid := true, txData := hdrByte0 s.cur.nts, txSof := true, txEof := false, txBad := false }
  else if s.framing .hdr1 then
    { o with txValid := true, txData := hdrByte1 s.cur.nts, txSof := false, txEof := false, txBad := false }
  else if s.starves then { o with upReady := s.line.txReady }
  else if s.framing .payload then
    { o with txValid := true, txData := upWordData s.line.uw, txSof := false, txEof := false, txBad := false,
             upReady := s.line.txReady }
  else if s.trailing then
    { o with txValid := true, txData := s.trailerByte, txSof := false, txEof := false, txBad := false }
  else if s.framing .crc3 then
    { o with txValid := true, txData := s.trailerByte, txSof := false, txEof := true, txBad := s.cur.txNull }
  else o

/-- What the framer's operations leave of a state. -/
def State.afterFramer (s u : State) : State :=
  { u with
      nxt :=
        { u.nxt with
            frState := s.frStateNext u.nxt.frState, txStage := s.txStageNext u.nxt.txStage
            txCrc := s.txCrcNext u.nxt.txCrc, txNull := s.txNullNext u.nxt.txNull, nts := s.ntsNext u.nxt.nts
            unacked := s.unackedPushed u.nxt.unacked }
      req :=
        { u.req with
            store := if s.completes then reqWord true s.cur.nts else u.req.store
            storeBytes := if s.completes then s.cur.txStage ++ be32 s.cur.txCrc else u.req.storeBytes
            delB := if s.aborts then reqWord true s.cur.nts else u.req.delB }
      out := s.framerDrives u.out }

/-- The framer is in one state. -/
theorem framing_iff (s : State) (f : FrState) : s.framing f = true ↔ s.cur.rcState = .idle ∧ s.cur.frState = f := by
  simp [State.framing]

theorem framing_of (s : State) (f g : FrState) (h : s.framing f = true) : s.framing g = decide (f = g) := by
  obtain ⟨hr, hf⟩ := (framing_iff s f).mp h
  subst hf
  simp only [State.framing, hr]
  cases s.cur.frState <;> cases g <;> rfl

theorem decoded_up (s : State) :
    s.decoded (.up s.line.uw) =
      if s.canOpen then if upWordValid s.line.uw then [.txStart] else []
      else if s.framing .payload then
        if upWordValid s.line.uw then
          if !upWordLast s.line.uw && s.atMax then [.txOverlen (upWordData s.line.uw)]
          else [.txData (upWordLast s.line.uw) (upWordData s.line.uw)]
        else [.txNullify]
      else [] := by
  have hup : s.decodeCtx.up = if s.canOpen then .opening else if s.framing .payload then .payload s.atMax else .shut := rfl
  simp only [State.decoded, decode, decodeUp, hup]
  rcases Bool.eq_false_or_eq_true s.canOpen with ho | ho
  · simp only [ho, if_true, apply_ite Decoded.toList]; rfl
  · rcases Bool.eq_false_or_eq_true (s.framing .payload) with hp | hp
    · simp only [ho, hp, if_true, Bool.false_eq_true, if_false, apply_ite Decoded.toList]; rfl
    · simp only [ho, hp, Bool.false_eq_true, if_false]; rfl

theorem framerOps_eq (s : State) :
    s.framerOps =
      if s.framing .hdr1 then [.txHdr1]
      else if s.trailing then [.txCrc]
      else if s.framing .crc3 then (if s.cur.txNull then [.txAbort] else [.txComplete])
      else [] := by
  cases hr : s.cur.rcState
  · cases hf : s.cur.frState <;> simp [State.framerOps, State.trailing, State.framing, hr, hf]
  · simp [State.framerOps, State.trailing, State.framing, hr]

theorem offer_readyUp (s : State) (d : Byte) (sof eof bad : Bool) :
    (s.offer d sof eof bad).readyUp =
      s.drive fun o =>
        { o with txValid := true, txData := d, txSof := sof, txEof := eof, txBad := bad, upReady := s.line.txReady } := rfl

/-! Each operation of the framer, where it happens. -/

theorem exec_txStart (s : State) (hl : s.line.live = true) (hc : s.canStart = true) :
    let o := s.offer (hdrByte0 s.cur.nts) true false false
    exec .txStart s = .next
      (if s.line.txReady then
        o.write fun r => { r with txStage := [hdrByte0 s.cur.nts], txNull := false, frState := .hdr1 }
      else o) := by
  intro o
  simp only [exec, execTxStart]
  rw [happens_of _ _ s hl hc]
  rfl

theorem exec_txHdr1 (s : State) (hl : s.line.live = true) (hc : s.framing .hdr1 = true) :
    let o := s.offer (hdrByte1 s.cur.nts) false false false
    exec .txHdr1 s = .next
      (if s.line.txReady then
        o.write fun r => { r with txStage := s.cur.txStage ++ [hdrByte1 s.cur.nts], frState := .payload }
      else o) := by
  intro o
  simp only [exec, execTxHdr1]
  rw [happens_of _ _ s hl hc]
  rfl

theorem exec_txData (s : State) (last : Bool) (d : Byte) (hl : s.line.live = true) (hf : s.framing .payload = true)
    (hm : (!last && s.atMax) = false) :
    let o := (s.offer d false false false).readyUp
    exec (.txData last d) s = .next
      (if s.line.txReady then
        if last then
          o.write fun r =>
            { r with txStage := s.cur.txStage ++ [d], txCrc := crcOf s.par.crc (s.cur.txStage ++ [d]), frState := .crc0 }
        else o.write fun r => { r with txStage := s.cur.txStage ++ [d] }
      else o) := by
  intro o
  simp only [exec, execTxData]
  rw [happens_of _ _ s hl (by simp [hf, hm])]
  rfl

theorem exec_txOverlen (s : State) (d : Byte) (hl : s.line.live = true) (hf : s.framing .payload = true)
    (hm : s.atMax = true) :
    let o := (s.offer d false false false).readyUp
    exec (.txOverlen d) s = .next
      (if s.line.txReady then
        (o.write fun r => { r with txStage := s.cur.txStage ++ [d] }).nullify (s.cur.txStage ++ [d])
      else o) := by
  intro o
  simp only [exec, execTxOverlen]
  rw [happens_of _ _ s hl (by simp [hf, hm])]
  rfl

theorem exec_txNullify (s : State) (hl : s.line.live = true) (hf : s.framing .payload = true) :
    exec .txNullify s = .next (s.readyUp.nullify s.cur.txStage) := by
  simp only [exec, execTxNullify]
  rw [happens_of _ _ s hl hf]

theorem exec_txCrc (s : State) (hl : s.line.live = true) (hc : s.trailing = true) :
    let o := s.offer s.trailerByte false false false
    exec .txCrc s = .next
      (if s.line.txReady then o.write fun r => { r with frState := nextCrcState s.cur.frState } else o) := by
  intro o
  simp only [exec, execTxCrc]
  rw [happens_of _ _ s hl (by simpa only [State.trailing] using hc)]
  rfl

theorem exec_txAbort (s : State) (hl : s.line.live = true) (hf : s.framing .crc3 = true) (hn : s.cur.txNull = true) :
    let o := s.offer s.trailerByte false true true
    exec .txAbort s = .next
      (if s.line.txReady then
        (o.request fun q => { q with delB := reqWord true s.cur.nts }).write fun r =>
          { r with frState := .idle, txStage := [], txNull := false }
      else o) := by
  intro o
  simp only [exec, execTxAbort]
  rw [happens_of _ _ s hl (by simp [hf, hn])]
  rfl

theorem exec_txComplete (s : State) (hl : s.line.live = true) (hf : s.framing .crc3 = true) (hn : s.cur.txNull = false) :
    let o := s.offer s.trailerByte false true false
    exec .txComplete s = .next
      (if s.line.txReady then
        (o.request fun q =>
          { q with store := reqWord true s.cur.nts, storeBytes := s.cur.txStage ++ be32 s.cur.txCrc }).write fun r =>
          { r with unacked := r.unacked ++ [s.cur.nts], nts := seqInc s.cur.nts, frState := .idle, txStage := [] }
      else o) := by
  intro o
  simp only [exec, execTxComplete]
  rw [happens_of _ _ s hl (by simp [hf, hn])]
  rfl

theorem runAll_framer (s : State) (hl : s.line.live = true) :
    runAll (s.decoded (.up s.line.uw) ++ s.framerOps) s = .next (s.afterFramer s) := by
  rw [decoded_up, framerOps_eq]
  simp only [State.afterFramer, State.frStateNext, State.txStageNext, State.txCrcNext, State.txNullNext, State.ntsNext,
    State.unackedPushed, State.framerDrives, State.frameStarts, State.headerEnds, State.payloadEnds, State.overruns,
    State.byteTaken, State.starves, State.aborts, State.completes]
  by_cases hfr : ∃ f, s.framing f = true
  case neg =>
    have hno : ∀ f, s.framing f = false := by simpa using hfr
    have ht : s.trailing = false := by simp [State.trailing, hno]
    simp [State.canStart, State.canOpen, hno, ht]
  case pos =>
    obtain ⟨f, hf⟩ := hfr
    have hE := fun g => framing_of s f g hf
    have hT : s.trailing = (decide (f = .crc0) || decide (f = .crc1) || decide (f = .crc2)) := by
      simp only [State.trailing, hE]
    have hO : f ≠ .idle → s.canOpen = false := fun h => by simp [State.canOpen, hE, h]
    cases f
    case idle =>
      rcases Bool.eq_false_or_eq_true s.canStart with hc | hc
      · have hop : s.canOpen = true ∧ upWordValid s.line.uw = true := by simpa [State.canStart] using hc
        rcases Bool.eq_false_or_eq_true s.line.txReady with ht | ht <;>
          simp [hop, hE, hT, runAll_singleton, exec_txStart s hl hc, hc, ht, State.write, State.offer, State.drive]
      · have hop : (if s.canOpen then if upWordValid s.line.uw then [Instr.txStart] else [] else []) = [] := by
          simp only [State.canStart, Bool.and_eq_false_iff] at hc
          rcases hc with hc | hc <;> simp [hc]
        simp [hop, hc, hE, hT]
    case hdr1 =>
      have hc : s.canStart = false := by simp [State.canStart, hO]
      rcases Bool.eq_false_or_eq_true s.line.txReady with ht | ht <;>
        simp [hO, hE, hT, hc, runAll_singleton, exec_txHdr1 s hl hf, ht, State.write, State.offer, State.drive]
    case payload =>
      have hc : s.canStart = false := by simp [State.canStart, hO]
      rcases Bool.eq_false_or_eq_true (upWordValid s.line.uw) with hv | hv
      case inr =>
        simp [hO, hE, hT, hc, hv, runAll_singleton, exec_txNullify s hl hf, State.write, State.readyUp,
          State.drive, State.nullify]
      case inl =>
        rcases Bool.eq_false_or_eq_true (upWordLast s.line.uw) with hla | hla
        · have hx := fun d => exec_txData s true d hl hf rfl
          rcases Bool.eq_false_or_eq_true s.line.txReady with ht | ht <;>
            simp [hO, hE, hT, hc, hv, ht, hla, runAll_singleton, hx, State.write, offer_readyUp, State.drive]
        · rcases Bool.eq_false_or_eq_true s.atMax with hm | hm
          · have hx := fun d => exec_txOverlen s d hl hf hm
            rcases Bool.eq_false_or_eq_true s.line.txReady with ht | ht <;>
              simp [hO, hE, hT, hc, hv, ht, hla, hm, runAll_singleton, hx, State.write, offer_readyUp, State.drive,
                State.nullify]
          · have hx := fun d => exec_txData s false d hl hf (by simp [hm])
            rcases Bool.eq_false_or_eq_true s.line.txReady with ht | ht <;>
              simp [hO, hE, hT, hc, hv, ht, hla, hm, runAll_singleton, hx, State.write, offer_readyUp, State.drive]
    case crc3 =>
      have hc : s.canStart = false := by simp [State.canStart, hO]
      rcases Bool.eq_false_or_eq_true s.cur.txNull with hn | hn
      · rcases Bool.eq_false_or_eq_true s.line.txReady with ht | ht <;>
          simp [hO, hE, hT, hc, hn, ht, runAll_singleton, exec_txAbort s hl hf hn, State.write,
            State.request, State.offer, State.drive]
      · rcases Bool.eq_false_or_eq_true s.line.txReady with ht | ht <;>
          simp [hO, hE, hT, hc, hn, ht, runAll_singleton, exec_txComplete s hl hf hn, State.write,
            State.request, State.offer, State.drive]
    all_goals
      have hc : s.canStart = false := by simp [State.canStart, hO]
      rcases Bool.eq_false_or_eq_true s.line.txReady with ht | ht <;>
        simp [hO, hE, hT, hc, ht, runAll_singleton, exec_txCrc s hl (by simp [hT]), State.write, State.offer,
          State.drive]

end Sys2Proof.Machine
end

section
namespace Sys2Proof.Machine

/-! ### The outputs and answers of every tick, R144, R267 -/

/-- R267. -/
def State.statusDrives (s : State) (o : PortOut) : PortOut :=
  { o with
      stTxSeq := s.cur.nts, stRxSeq := s.cur.nrs, stRbCount := s.rbCount, stRxqCount := s.rxqCount
      stReplayCount := s.cur.replayCount, stRbFull := s.rbFull, stRbEmpty := s.rbEmpty }

/-- What STATUS and the query port leave of a state. -/
def State.afterStatus (s u : State) : State :=
  { u with
      ans := { u.ans with qHit := (find s.cur.slots u.req.query).isSome }
      out := s.statusDrives u.out }

theorem runAll_status (s : State) (hl : s.line.live = true) :
    runAll ([.status] ++ s.decoded (.query s.req.query)) s = .next (s.afterStatus s) := by
  have hx : exec .status s = .next (s.drive s.statusDrives) := by
    simp only [exec, execStatus, happens, hl, Bool.and_self, if_true]; rfl
  have hq : exec (.rbContains s.req.query) (s.drive s.statusDrives) = .next (s.afterStatus s) := by
    simp only [exec, execRbContains, happens, drive_line, hl, Bool.and_self, if_true]; rfl
  simp [State.decoded, decode, Decoded.toList, runAll_cons, hx, hq]

/-! ### The receive queue and the pending message, R239, R243 -/

/-- What the pop leaves of a state. -/
def State.afterPop (s u : State) : State := { u with nxt := { u.nxt with rxq := s.queueAfterPop } }

theorem runAll_pop (s : State) (hl : s.line.live = true) (hq : s.nxt.rxq = s.cur.rxq) :
    runAll (s.decoded (.pop (BitVec.ofBool s.line.rxqPop))) s = .next (s.afterPop s) := by
  have hd : s.decoded (.pop (BitVec.ofBool s.line.rxqPop)) = if s.line.rxqPop then [.rxqPop] else [] := by
    simp only [State.decoded, decode, ofBool_bit, apply_ite Decoded.toList]; rfl
  rw [hd]
  simp only [State.afterPop, State.queueAfterPop]
  rcases Bool.eq_false_or_eq_true s.line.rxqPop with hp | hp
  · cases hc : s.cur.rxq with
    | nil =>
      simp only [hp, if_true, List.tail_nil, runAll_singleton, exec, execRxqPop, happens, State.rxqCount, hc]
      simp [← hq.trans hc]
    | cons e es => simp [hp, runAll_singleton, exec, execRxqPop, happens, State.rxqCount, hc, hl, State.write]
  · simp [hp, ← hq]

/-- R239: the pending message on the outgoing control channel. -/
def State.messageDrives (s : State) (o : PortOut) : PortOut :=
  if s.cur.ctlPending then { o with ctlTxValid := true, ctlTxPositive := s.cur.ctlPositive, ctlTxId := s.cur.ctlId } else o

/-- `ctl_pending` before this tick's new message (R239, R240). -/
def State.ctlPendingKept (s : State) (old : Bool) : Bool := if s.cur.ctlPending && s.line.ctlTxReady then false else old

/-- What the hand-over of the pending message leaves of a state. -/
def State.afterHandOver (s u : State) : State :=
  { u with nxt := { u.nxt with ctlPending := s.ctlPendingKept u.nxt.ctlPending }, out := s.messageDrives u.out }

theorem runAll_handOver (s : State) (hl : s.line.live = true) :
    runAll (s.decoded (.ctlOut (ctlWord s.cur.ctlPending s.cur.ctlPositive s.cur.ctlId))) s = .next (s.afterHandOver s) := by
  have hd : s.decoded (.ctlOut (ctlWord s.cur.ctlPending s.cur.ctlPositive s.cur.ctlId)) =
      if s.cur.ctlPending then [.ctlSend s.cur.ctlPositive s.cur.ctlId] else [] := by
    simp only [State.decoded, decode, ctlWordValid_ctlWord, ctlWordPositive_ctlWord, ctlWordId_ctlWord,
      apply_ite Decoded.toList]
    rfl
  rw [hd]
  simp only [State.afterHandOver, State.ctlPendingKept, State.messageDrives]
  rcases Bool.eq_false_or_eq_true s.cur.ctlPending with hp | hp
  · rcases Bool.eq_false_or_eq_true s.line.ctlTxReady with hr | hr <;>
      simp [hp, hr, runAll_singleton, exec, execCtlSend, happens, hl, State.write, State.drive]
  · simp [hp]

/-! ### The receive engine, R220 to R236 -/

/-- R221: the first byte of a frame. -/
def State.frameOpens (s : State) : Bool :=
  s.cur.rxState == .idle && (beatWordValid s.line.bw && beatWordSof s.line.bw)

/-- R223 to R225: a further byte of the frame. -/
def State.byteCaptured (s : State) : Bool := s.cur.rxState == .receiving && beatWordValid s.line.bw

/-- R221, R224, R225: the last byte of a frame. -/
def State.frameCloses (s : State) : Bool := (s.frameOpens || s.byteCaptured) && beatWordEof s.line.bw

/-- R230: an accepted frame fills the queue, and its ACK waits. -/
def State.ackDeferred (s : State) : Bool :=
  s.validates .accept && s.queueAfterPop.length + 1 == s.par.rxCap

/-- R236: the queue has room for the next frame. -/
def State.spaceFound (s : State) : Bool := s.cur.rxState == .waitspace && decide (s.rxqCount < s.par.rxCap)

def State.rxStateNext (s : State) (old : RxState) : RxState :=
  if s.frameCloses then .validating
  else if s.frameOpens then .receiving
  else if s.cur.rxState == .validating then (if s.ackDeferred then .waitspace else .idle)
  else if s.spaceFound then .idle
  else old

def State.rxStageNext (s : State) (old : List Byte) : List Byte :=
  if s.frameOpens then [beatWordData s.line.bw]
  else if s.byteCaptured && decide (s.cur.rxStage.length < maxFrame s.par) then s.cur.rxStage ++ [beatWordData s.line.bw]
  else if s.cur.rxState == .validating then []
  else old

def State.rxTruncNext (s : State) (old : Bool) : Bool :=
  if s.frameCloses then beatWordBad s.line.bw else if s.cur.rxState == .validating then false else old

def State.rxOversizeNext (s : State) (old : Bool) : Bool :=
  if s.frameOpens then false
  else if s.byteCaptured && !decide (s.cur.rxStage.length < maxFrame s.par) then true
  else if s.cur.rxState == .validating then false
  else old

def State.nrsNext (s : State) (old : Seq) : Seq := if s.validates .accept then seqInc s.cur.nrs else old

def State.nakScheduledNext (s : State) (old : Bool) : Bool :=
  if s.validates .accept then false
  else if (s.validates .gap || s.validates .corrupt) && !s.cur.nakScheduled then true
  else old

/-- The receive queue after this tick's append (R230, R244). -/
def State.rxqPushed (s : State) (old : List RxEntry) : List RxEntry :=
  if s.validates .accept then old ++ [{ id := rxId s.cur.rxStage, payload := rxPayload s.cur.rxStage }] else old

/-- What the receive engine's operations leave of a state. -/
def State.afterReceive (s u : State) : State :=
  { u with
      nxt :=
        { u.nxt with
            nrs := s.nrsNext u.nxt.nrs, rxState := s.rxStateNext u.nxt.rxState, rxStage := s.rxStageNext u.nxt.rxStage
            rxTrunc := s.rxTruncNext u.nxt.rxTrunc, rxOversize := s.rxOversizeNext u.nxt.rxOversize
            nakScheduled := s.nakScheduledNext u.nxt.nakScheduled
            ackTimer := if s.scheduledNow.isSome then 0 else u.nxt.ackTimer
            ctlPending := s.scheduledNow.isSome || u.nxt.ctlPending
            ctlPositive := (s.scheduledNow.map Prod.fst).getD u.nxt.ctlPositive
            ctlId := (s.scheduledNow.map Prod.snd).getD u.nxt.ctlId
            rxq := s.rxqPushed u.nxt.rxq }
      schedd := s.scheduledNow.isSome || u.schedd }

theorem decoded_beat (s : State) :
    s.decoded (.beat s.line.bw) =
      if beatWordValid s.line.bw then
        match s.cur.rxState with
        | .idle =>
          if beatWordSof s.line.bw then
            [.rxStart (beatWordEof s.line.bw) (beatWordBad s.line.bw) (beatWordData s.line.bw)]
          else [.rxStray]
        | .receiving =>
          if beatWordEof s.line.bw then
            if beatWordBad s.line.bw then [.rxTrunc (beatWordData s.line.bw)] else [.rxEnd (beatWordData s.line.bw)]
          else [.rxData (beatWordData s.line.bw)]
        | .validating => []
        | .waitspace => []
      else [] := by
  have hrx : s.decodeCtx.rx = s.cur.rxState := rfl
  simp only [State.decoded, decode, decodeBeat, hrx, apply_ite Decoded.toList]
  cases s.cur.rxState <;> simp only [apply_ite Decoded.toList] <;> rfl

theorem decoded_class (s : State) :
    s.decoded (.vc s.rxClass.code) =
      match s.rxClass with
      | .accept => [.rxAccept]
      | .duplicate => [.rxDup]
      | .gap => [.rxGap]
      | .corrupt => [.rxCorrupt] := by
  simp only [State.decoded, decode, decodeClass, ofCode_code]
  cases s.rxClass <;> rfl

/-- R221, R222: the idle receive engine opens a frame on a start beat and ignores every other line. -/
theorem runAll_receive_idle (s : State) (hl : s.line.live = true) (hx : s.cur.rxState = .idle) :
    runAll (s.decoded (.beat s.line.bw) ++ s.rxOps) s = .next (s.afterReceive s) := by
  have hv : ∀ c, s.validates c = false := fun c => by simp [State.validates, hx]
  rw [decoded_beat]
  simp only [State.afterReceive, State.rxStateNext, State.rxStageNext, State.rxTruncNext, State.rxOversizeNext,
    State.nrsNext, State.nakScheduledNext, State.rxqPushed, State.frameCloses, State.frameOpens, State.byteCaptured,
    State.spaceFound, State.scheduledNow, hv, hx, State.rxOps]
  rcases Bool.eq_false_or_eq_true (beatWordValid s.line.bw) with h1 | h1
  · rcases Bool.eq_false_or_eq_true (beatWordSof s.line.bw) with h2 | h2
    · rcases Bool.eq_false_or_eq_true (beatWordEof s.line.bw) with h3 | h3 <;>
        simp [h1, h2, h3, runAll_singleton, exec, execRxStart, happens, hl, hx, State.write]
    · simp [h1, h2, runAll_singleton, exec, execRxStray, happens]
  · simp [h1]

theorem runAll_receive_receiving (s : State) (hl : s.line.live = true) (hx : s.cur.rxState = .receiving) :
    runAll (s.decoded (.beat s.line.bw) ++ s.rxOps) s = .next (s.afterReceive s) := by
  have hv : ∀ c, s.validates c = false := fun c => by simp [State.validates, hx]
  have hcap : ∀ d, s.capture d = _ := fun d => rfl
  rw [decoded_beat]
  simp only [State.afterReceive, State.rxStateNext, State.rxStageNext, State.rxTruncNext, State.rxOversizeNext,
    State.nrsNext, State.nakScheduledNext, State.rxqPushed, State.frameCloses, State.frameOpens, State.byteCaptured,
    State.spaceFound, State.scheduledNow, hv, hx, State.rxOps]
  rcases Bool.eq_false_or_eq_true (beatWordValid s.line.bw) with h1 | h1
  · by_cases h2 : s.cur.rxStage.length < maxFrame s.par
    all_goals
      rcases Bool.eq_false_or_eq_true (beatWordEof s.line.bw) with h3 | h3
      · rcases Bool.eq_false_or_eq_true (beatWordBad s.line.bw) with h4 | h4 <;>
          simp [h1, h2, h3, h4, runAll_singleton, exec, execRxTrunc, execRxEnd, happens, hl, hx,
            State.captureLast, State.capture, State.write]
      · simp [h1, h2, h3, runAll_singleton, exec, execRxData, happens, hl, hx, State.capture, State.write]
  · simp [h1]

theorem runAll_receive_waitspace (s : State) (hl : s.line.live = true) (hx : s.cur.rxState = .waitspace) :
    runAll (s.decoded (.beat s.line.bw) ++ s.rxOps) s = .next (s.afterReceive s) := by
  have hv : ∀ c, s.validates c = false := fun c => by simp [State.validates, hx]
  rw [decoded_beat]
  simp only [State.afterReceive, State.rxStateNext, State.rxStageNext, State.rxTruncNext, State.rxOversizeNext,
    State.nrsNext, State.nakScheduledNext, State.rxqPushed, State.frameCloses, State.frameOpens, State.byteCaptured,
    State.spaceFound, State.scheduledNow, hv, hx, State.rxOps]
  by_cases h : s.rxqCount < s.par.rxCap
  · simp [h, show s.cur.rxq.length < s.par.rxCap from h, runAll_singleton, exec, execRxSpace, happens, hl,
      hx, State.schedNow, State.sched, State.markSched, State.write]
  · simp [h, show ¬ s.cur.rxq.length < s.par.rxCap from h]

theorem runAll_receive_validating (s : State) (hl : s.line.live = true) (hx : s.cur.rxState = .validating)
    (hq : s.nxt.rxq = s.queueAfterPop) :
    runAll (s.decoded (.beat s.line.bw) ++ s.rxOps) s = .next (s.afterReceive s) := by
  have hops : s.rxOps = s.decoded (.vc s.rxClass.code) := by simp only [State.rxOps, hx]
  have hv : ∀ c, s.validates c = (s.rxClass == c) := fun c => by simp [State.validates, hx]
  rw [decoded_beat, hops, decoded_class]
  simp only [State.afterReceive, State.rxStateNext, State.rxStageNext, State.rxTruncNext, State.rxOversizeNext,
    State.nrsNext, State.nakScheduledNext, State.rxqPushed, State.frameCloses, State.frameOpens, State.byteCaptured,
    State.spaceFound, State.scheduledNow, State.ackDeferred, hv, hx, ← hq]
  cases hc : s.rxClass
  case accept =>
    by_cases hw : s.nxt.rxq.length + 1 = s.par.rxCap <;>
    simp [hw, hc, runAll_singleton, exec, execRxAccept, happens, hl, hv, State.acceptFrame, State.schedNow,
      State.sched, State.markSched, State.releaseStaging, State.write]
  case duplicate =>
    simp [hc, runAll_singleton, exec, execRxDup, happens, hl, hv, State.schedNow, State.sched,
      State.markSched, State.releaseStaging, State.write]
  case gap =>
    rcases Bool.eq_false_or_eq_true s.cur.nakScheduled with hn | hn <;>
    simp [hn, hc, runAll_singleton, exec, execRxGap, happens, hl, hv, State.raiseNak, State.schedNow,
      State.sched, State.markSched, State.releaseStaging, State.write]
  case corrupt =>
    rcases Bool.eq_false_or_eq_true s.cur.nakScheduled with hn | hn <;>
    simp [hn, hc, runAll_singleton, exec, execRxCorrupt, happens, hl, hv, State.raiseNak, State.schedNow,
      State.sched, State.markSched, State.releaseStaging, State.write]

theorem runAll_receive (s : State) (hl : s.line.live = true) (hq : s.nxt.rxq = s.queueAfterPop) :
    runAll (s.decoded (.beat s.line.bw) ++ s.rxOps) s = .next (s.afterReceive s) := by
  cases hx : s.cur.rxState
  case idle => exact runAll_receive_idle s hl hx
  case receiving => exact runAll_receive_receiving s hl hx
  case validating => exact runAll_receive_validating s hl hx hq
  case waitspace => exact runAll_receive_waitspace s hl hx

end Sys2Proof.Machine
end

section
namespace Sys2Proof.Machine

/-! ### The retry buffer's slots, R140 to R148 -/

/-- The slots without the frames of `ids` (R143): `occ` is cleared in each slot that `find` names. -/
def freeSlots (slots : List Slot) (ids : List Seq) : List Slot :=
  slots.mapIdx fun k sl => if ids.any fun i => find slots i == some k then { sl with occ := false } else sl

@[simp] theorem freeSlots_nil (slots : List Slot) : freeSlots slots [] = slots := by
  apply List.ext_getElem? 
  intro k
  simp [freeSlots]

theorem freeSlots_congr (slots : List Slot) (a b : List Seq) (h : ∀ i, i ∈ a ↔ i ∈ b) :
    freeSlots slots a = freeSlots slots b := by
  have hany : ∀ k, (a.any fun i => find slots i == some k) = b.any fun i => find slots i == some k := fun k => by
    rw [Bool.eq_iff_iff, List.any_eq_true, List.any_eq_true]
    simp only [h]
  simp only [freeSlots, hany]

/-- One more id is freed. -/
theorem freeSlots_append_singleton (slots : List Slot) (ids : List Seq) (i : Seq) :
    freeSlots slots (ids ++ [i]) =
      match find slots i with
      | some k => (freeSlots slots ids).modify k fun sl => { sl with occ := false }
      | none => freeSlots slots ids := by
  cases hf : find slots i with
  | none => simp [freeSlots, hf]
  | some k =>
    apply List.ext_getElem?
    intro j
    rw [List.getElem?_modify]
    by_cases hj : k = j
    · subst hj
      cases hs : slots[k]? with
      | none => simp [freeSlots, hs]
      | some sl =>
        simp only [freeSlots, List.getElem?_mapIdx, hs, Option.map_some, List.any_append, List.any_cons, hf,
          beq_self_eq_true,
          Bool.true_or, Bool.or_true, if_true]
        split <;> rfl
    · simp [freeSlots, hf, hj]

/-- The slots of the next tick are those of this one without the frames of `ids`, which are the ids of the delete list. -/
def State.HasFreed (s : State) (ids : List Seq) : Prop :=
  s.nxt.slots = freeSlots s.cur.slots ids ∧ ∀ i, i ∈ s.dels.map Prod.fst ↔ i ∈ ids

theorem serviceDelete_hasFreed (s : State) (ids : List Seq) (c : DelCause) (i : Seq) (h : s.HasFreed ids) :
    (s.serviceDelete c i).HasFreed (ids ++ [i]) := by
  obtain ⟨hs, hd⟩ := h
  have hany : (s.dels.any fun d => d.1 == i) = true ↔ i ∈ ids := by
    rw [← hd]; simp
  unfold State.serviceDelete
  split
  · rename_i ha
    have hi := hany.mp ha
    exact ⟨by rw [hs]; exact freeSlots_congr _ _ _ fun j => by simp; rintro rfl; exact hi,
      fun j => by rw [hd]; simp; rintro rfl; exact hi⟩
  · refine ⟨?_, fun j => ?_⟩
    · rw [freeSlots_append_singleton]
      rcases clearSlot_cases s i with ⟨hf, hc⟩ | ⟨k, hf, hc⟩ <;> simp [hc, hf, hs]
    · rcases clearSlot_cases s i with ⟨hf, hc⟩ | ⟨k, hf, hc⟩ <;>
        simp only [hc, recordDel_dels, write_dels, List.map_append, List.mem_append, hd] <;> simp

theorem serviceDeletes_hasFreed (c : DelCause) (js : List Seq) (s : State) (ids : List Seq) (h : s.HasFreed ids) :
    (s.serviceDeletes c js).HasFreed (ids ++ js) := by
  induction js generalizing s ids with
  | nil => simpa [State.serviceDeletes] using h
  | cons j js ih =>
    rw [List.append_cons]
    exact ih (s.serviceDelete c j) (ids ++ [j]) (serviceDelete_hasFreed s ids c j h)

/-- R205: the ids an effective ACK releases. -/
def State.ackedIds (s : State) : List Seq :=
  if s.ackEffective then seqRange (s.cur.unacked.headD (ctlWordId s.line.cw)) (ctlWordId s.line.cw) else []

/-- R179: the id of a frame that is nullified. -/
def State.abortedIds (s : State) : List Seq := if s.aborts then [s.cur.nts] else []

/-- R180: the slot a completed frame takes. -/
def State.slotTaken (s : State) : Option Nat :=
  if s.completes && !((find s.cur.slots s.cur.nts).isSome || s.rbFull) then firstFree s.cur.slots else none

/-- R96, R180: the completed frame in its slot. -/
def State.completedSlot (s : State) : Slot :=
  { occ := true, id := s.cur.nts, bytes := s.cur.txStage ++ be32 s.cur.txCrc }

/-- R148: the slots after a tick, the deletes and then the store. -/
def State.slotsNext (s : State) : List Slot :=
  match s.slotTaken with
  | some k => (freeSlots s.cur.slots (s.ackedIds ++ s.abortedIds)).set k s.completedSlot
  | none => freeSlots s.cur.slots (s.ackedIds ++ s.abortedIds)

/-- The requests that the operations of a tick have raised (R140). -/
structure State.Requests (s u : State) : Prop where
  delA  : u.req.delA =
    if s.ackEffective then rangeWord true (s.cur.unacked.headD (ctlWordId s.line.cw)) (ctlWordId s.line.cw) else 0
  delB  : u.req.delB = if s.aborts then reqWord true s.cur.nts else 0
  store : u.req.store = if s.completes then reqWord true s.cur.nts else 0
  bytes : s.completes = true → u.req.storeBytes = s.cur.txStage ++ be32 s.cur.txCrc
  send  : u.req.send = if s.passSends then reqWord true s.cur.rpId else 0

theorem runAll_deletes (s : State) (hl : s.line.live = true) (hr : s.Requests s) (hs : s.nxt.slots = s.cur.slots)
    (hd : s.dels = []) :
    ∃ ds, runAll (s.decoded (.delA s.req.delA) ++ s.decoded (.delB s.req.delB)) s =
      .next { s with nxt := { s.nxt with slots := freeSlots s.cur.slots (s.ackedIds ++ s.abortedIds) }, dels := ds } := by
  have hA : s.decoded (.delA s.req.delA) =
      if s.ackEffective then
        [.rbDelete (.portA (s.cur.unacked.headD (ctlWordId s.line.cw)) (ctlWordId s.line.cw))] else [] := by
    rw [hr.delA]
    cases s.ackEffective
    · simp only [Bool.false_eq_true, if_false, State.decoded, decode, rangeWordValid_zero]; rfl
    · simp [State.decoded, decode, Decoded.toList]
  have hB : s.decoded (.delB s.req.delB) = if s.aborts then [.rbDelete (.portB s.cur.nts)] else [] := by
    rw [hr.delB]
    cases s.aborts
    · simp only [Bool.false_eq_true, if_false, State.decoded, decode, reqWordValid_zero]; rfl
    · simp [State.decoded, decode, Decoded.toList]
  have hx : ∀ (u : State) (r : DelReq), u.line.live = true →
      exec (.rbDelete r) u = .next (u.serviceDeletes (delRequests r).1 (delRequests r).2) := fun u r hu => by
    simp [exec, execRbDelete, happens, hu]
  obtain ⟨sl, ds, h1⟩ := serviceDeletes_frame .acknowledgement s.ackedIds s
  have hl1 : (s.serviceDeletes .acknowledgement s.ackedIds).line.live = true := by rw [h1]; exact hl
  have hrun : runAll (s.decoded (.delA s.req.delA) ++ s.decoded (.delB s.req.delB)) s =
      .next ((s.serviceDeletes .acknowledgement s.ackedIds).serviceDeletes .nullification s.abortedIds) := by
    rw [runAll_append, hA, hB]
    have h1 : runAll (if s.ackEffective then
        [.rbDelete (.portA (s.cur.unacked.headD (ctlWordId s.line.cw)) (ctlWordId s.line.cw))] else []) s =
        .next (s.serviceDeletes .acknowledgement s.ackedIds) := by
      unfold State.ackedIds
      cases s.ackEffective
      · rfl
      · simp [runAll_singleton, hx s _ hl, delRequests]
    rw [h1, andThen_next]
    unfold State.abortedIds
    cases s.aborts
    · rfl
    · simp [runAll_singleton, hx _ _ hl1, delRequests]
  have hfree : ((s.serviceDeletes .acknowledgement s.ackedIds).serviceDeletes .nullification s.abortedIds).HasFreed
      (s.ackedIds ++ s.abortedIds) := by
    have h0 : s.HasFreed [] := ⟨by simp [hs], by simp [hd]⟩
    exact serviceDeletes_hasFreed _ _ _ _ (serviceDeletes_hasFreed _ _ _ _ h0)
  obtain ⟨sl', ds', h2⟩ := serviceDeletes_frame .nullification s.abortedIds
    (s.serviceDeletes .acknowledgement s.ackedIds)
  refine ⟨ds', ?_⟩
  have hsl := hfree.1
  rw [hrun]
  rw [h2, h1] at hsl ⊢
  rw [← show sl' = _ from hsl]

/-- What the store leaves of a state in which the deletes have been serviced. -/
theorem runAll_store (s : State) (hl : s.line.live = true) (hr : s.Requests s)
    (hs : s.nxt.slots = freeSlots s.cur.slots (s.ackedIds ++ s.abortedIds)) :
    runAll (s.decoded (.store s.req.store s.req.storeBytes)) s =
      .next { s with nxt := { s.nxt with slots := s.slotsNext } } := by
  have hd : s.decoded (.store s.req.store s.req.storeBytes) =
      if s.completes then [.rbStore s.cur.nts s.req.storeBytes] else [] := by
    rw [hr.store]
    cases s.completes
    · simp only [Bool.false_eq_true, if_false, State.decoded, decode, reqWordValid_zero]; rfl
    · simp [State.decoded, decode, Decoded.toList]
  rw [hd]
  rcases Bool.eq_false_or_eq_true s.completes with hc | hc
  · simp only [hc, if_true, runAll_singleton, hr.bytes hc, exec, execRbStore, happens, hl, Bool.and_self,
      State.storeFrame, State.slotsNext, State.slotTaken, State.completedSlot, Bool.true_and, ← hs]
    rcases Bool.eq_false_or_eq_true ((find s.cur.slots s.cur.nts).isSome || s.rbFull) with hf | hf
    · simp [hf]
    · simp only [hf, Bool.false_eq_true, if_false, Bool.not_false, if_true]
      cases firstFree s.cur.slots <;> simp [State.write]
  · simp [hc, State.slotsNext, State.slotTaken, ← hs]

theorem runAll_send (s : State) (hl : s.line.live = true) (hr : s.Requests s) :
    runAll (s.decoded (.send s.req.send)) s =
      .next { s with nxt :=
        { s.nxt with
            rpBusy := if s.passSends then true else s.nxt.rpBusy
            rpPos := if s.passSends then 0 else s.nxt.rpPos
            rpBytes := if s.passSends then s.cursorFrame else s.nxt.rpBytes } } := by
  have hd : s.decoded (.send s.req.send) = if s.passSends then [.rbSend (.start s.cur.rpId)] else [] := by
    rw [hr.send]
    cases s.passSends
    · simp only [Bool.false_eq_true, if_false, State.decoded, decode, reqWordValid_zero]; rfl
    · simp [State.decoded, decode, Decoded.toList]
  rw [hd]
  rcases Bool.eq_false_or_eq_true s.passSends with hc | hc
  · have hsome : (find s.cur.slots s.cur.rpId).isSome = true := by
      simp only [State.passSends, Bool.and_eq_true] at hc; exact hc.2
    obtain ⟨k, hk⟩ := Option.isSome_iff_exists.mp hsome
    simp [hc, runAll_singleton, exec, execRbSend, happens, hl, State.startSend, hk, State.cursorFrame, State.write]
  · simp [hc]

/-- What the requests leave of a state. -/
def State.afterRequests (s u : State) : State :=
  { u with nxt :=
      { u.nxt with
          slots := s.slotsNext
          rpBusy := if s.passSends then true else u.nxt.rpBusy
          rpPos := if s.passSends then 0 else u.nxt.rpPos
          rpBytes := if s.passSends then s.cursorFrame else u.nxt.rpBytes } }

theorem runAll_requested (s : State) (hl : s.line.live = true) (hr : s.Requests s) (hs : s.nxt.slots = s.cur.slots)
    (hd : s.dels = []) : ∃ ds, runAll s.requested s = .next { s.afterRequests s with dels := ds } := by
  obtain ⟨ds, h⟩ := runAll_deletes s hl hr hs hd
  refine ⟨ds, ?_⟩
  have h2 := runAll_store { s with nxt := { s.nxt with slots := freeSlots s.cur.slots (s.ackedIds ++ s.abortedIds) }, dels := ds }
    hl ⟨hr.delA, hr.delB, hr.store, hr.bytes, hr.send⟩ rfl
  have h3 := runAll_send { s with nxt := { s.nxt with slots := s.slotsNext }, dels := ds }
    hl ⟨hr.delA, hr.delB, hr.store, hr.bytes, hr.send⟩
  simp only [State.requested]
  rw [runAll_append, runAll_append, h, andThen_next]
  exact (congrArg (fun o => andThen o _) h2).trans h3

/-! ### The expiries, R210, R240, R241 -/

/-- What the expiry of the replay timer leaves of a state. -/
def State.afterTimeout (s : State) : State :=
  { s with nxt :=
      { s.nxt with
          replayTimer := if s.replayExpires then 0 else s.nxt.replayTimer
          replayReq := if s.replayExpires then true else s.nxt.replayReq } }

/-- R241: the keep-alive schedules an ACK. -/
def State.keepaliveSends (s : State) : Bool := s.ackExpires && !s.cur.ctlPending

/-- What the expiry of the ack timer leaves of a state. -/
def State.afterKeepalive (s : State) : State :=
  { s with nxt :=
      { s.nxt with
          ackTimer := if s.ackExpires then 0 else s.nxt.ackTimer
          ctlPending := if s.keepaliveSends then true else s.nxt.ctlPending
          ctlPositive := if s.keepaliveSends then true else s.nxt.ctlPositive
          ctlId := if s.keepaliveSends then seqDec s.cur.nrs else s.nxt.ctlId } }

theorem runAll_timeout (s : State) (hl : s.line.live = true) :
    runAll (if s.replayExpires then [.txTimeout] else []) s = .next s.afterTimeout := by
  simp only [State.afterTimeout]
  rcases Bool.eq_false_or_eq_true s.replayExpires with h | h
  · simp [h, hl, runAll_singleton, exec, execTxTimeout, happens, State.write]
  · simp [h]

theorem runAll_keepalive (s : State) (hl : s.line.live = true) :
    runAll (if s.ackExpires then [.rxKeepalive] else []) s = .next s.afterKeepalive := by
  simp only [State.afterKeepalive, State.keepaliveSends]
  rcases Bool.eq_false_or_eq_true s.ackExpires with h | h
  · rcases Bool.eq_false_or_eq_true s.cur.ctlPending with hp | hp <;>
      simp [h, hp, hl, runAll_singleton, exec, execRxKeepalive, happens, State.write, State.sched]
  · simp [h]

theorem runAll_expired (s : State) (hl : s.line.live = true) :
    runAll s.expired s = .next s.afterTimeout.afterKeepalive := by
  have hk : runAll (if s.ackExpires then [.rxKeepalive] else []) s.afterTimeout = .next s.afterTimeout.afterKeepalive :=
    runAll_keepalive s.afterTimeout hl
  simp only [State.expired, hl, if_true, runAll_append, runAll_timeout s hl, andThen_next, hk]

end Sys2Proof.Machine
end

section
namespace Sys2Proof.Machine

/-! ### The whole tick -/

/-- The state the expiries look at: `unacked` after this tick's removal and append (R212), and whether a message was scheduled
(R240). -/
def State.beforeExpiry (s : State) : State :=
  { s with nxt := { s.nxt with unacked := s.unackedPushed (s.unackedKept s.cur.unacked) }, schedd := s.scheduledNow.isSome }

/-- The registers after a tick with the link up. -/
def State.liveRegs (s : State) : Regs :=
  let e := s.beforeExpiry
  { nts          := s.ntsNext s.cur.nts
    lastAcked    := s.lastAckedNext s.cur.lastAcked
    unacked      := s.unackedPushed (s.unackedKept s.cur.unacked)
    replayTimer  := e.replayTimerNext
    replayCount  := s.replayCountNext s.cur.replayCount
    rcState      := s.rcStateNext s.cur.rcState
    replayReq    := if e.replayExpires then true else if s.naks then true else s.replayReqKept s.cur.replayReq
    frState      := s.frStateNext s.cur.frState
    txStage      := s.txStageNext s.cur.txStage
    txCrc        := s.txCrcNext s.cur.txCrc
    txNull       := s.txNullNext s.cur.txNull
    rpPass       := s.rpPassNext s.cur.rpPass
    rpId         := s.rpIdNext s.cur.rpId
    rpBusy       := if s.passSends then true else s.rpBusyKept s.cur.rpBusy
    rpBytes      := if s.passSends then s.cursorFrame else s.rpBytesKept s.cur.rpBytes
    rpPos        := if s.passSends then 0 else s.rpPosKept s.cur.rpPos
    slots        := s.slotsNext
    nrs          := s.nrsNext s.cur.nrs
    rxState      := s.rxStateNext s.cur.rxState
    rxStage      := s.rxStageNext s.cur.rxStage
    rxTrunc      := s.rxTruncNext s.cur.rxTrunc
    rxOversize   := s.rxOversizeNext s.cur.rxOversize
    nakScheduled := s.nakScheduledNext s.cur.nakScheduled
    ackTimer     := e.ackTimerNext
    ctlPending   := if e.keepaliveSends then true else s.scheduledNow.isSome || s.ctlPendingKept s.cur.ctlPending
    ctlPositive  := if e.keepaliveSends then true else (s.scheduledNow.map Prod.fst).getD s.cur.ctlPositive
    ctlId        := if e.keepaliveSends then seqDec s.cur.nrs else (s.scheduledNow.map Prod.snd).getD s.cur.ctlId
    rxq          := s.rxqPushed s.queueAfterPop }

/-- The outputs of a tick with the link up. -/
def State.liveOut (s : State) : PortOut :=
  s.framerDrives (s.replayDrives (s.messageDrives (s.statusDrives s.baseOut)))

/-- Run two lists, one after the other. -/
theorem runAll_append_of {a b : List Instr} {s t : State} {o : Host.Outcome State Fault Refusal} (ha : runAll a s = .next t)
    (hb : runAll b t = o) : runAll (a ++ b) s = o := by
  rw [runAll_append, ha, andThen_next, hb]

/-- `u` is a state of the tick that starts with the registers and inputs of `s`: the two agree on all that a condition of the
tick reads (R60). -/
structure State.SameTick (s u : State) : Prop where
  par    : u.par = s.par
  cur    : u.cur = s.cur
  inputs : u.inputs = s.inputs

theorem State.SameTick.exists_eq {s u : State} (h : s.SameTick u) :
    ∃ n q d c a o, u = { s with nxt := n, req := q, dels := d, schedd := c, ans := a, out := o } := by
  obtain ⟨p, r, n, q, d, c, a, o, i⟩ := u
  obtain ⟨rfl, rfl, rfl⟩ := h
  exact ⟨n, q, d, c, a, o, rfl⟩

theorem State.SameTick.live {s u : State} (h : s.SameTick u) (hl : s.line.live = true) : u.line.live = true := by
  obtain ⟨n, q, d, c, a, o, rfl⟩ := h.exists_eq
  exact hl

/-! The stages of a tick, each on the state the ones before it leave. -/

section Stages
variable {s u : State} (h : s.SameTick u) (hl : s.line.live = true)
include h hl

theorem runAll_pop_of_sameTick (hq : u.nxt.rxq = s.cur.rxq) :
    runAll (s.decoded (.pop (BitVec.ofBool s.line.rxqPop))) u = .next (s.afterPop u) := by
  have hu := runAll_pop u (h.live hl)
  obtain ⟨n, q, d, c, a, o, rfl⟩ := h.exists_eq
  exact hu hq

theorem runAll_handOver_of_sameTick :
    runAll (s.decoded (.ctlOut (ctlWord s.cur.ctlPending s.cur.ctlPositive s.cur.ctlId))) u =
      .next (s.afterHandOver u) := by
  have hu := runAll_handOver u (h.live hl)
  obtain ⟨n, q, d, c, a, o, rfl⟩ := h.exists_eq
  exact hu

theorem runAll_replayOps_of_sameTick : runAll s.replayOps u = .next (s.afterReplay u) := by
  have hu := runAll_replayOps u (h.live hl)
  obtain ⟨n, q, d, c, a, o, rfl⟩ := h.exists_eq
  exact hu

theorem runAll_control_of_sameTick : runAll (s.decoded (.ctl s.line.cw)) u = .next (s.afterControl u) := by
  have hu := runAll_control u (h.live hl)
  obtain ⟨n, q, d, c, a, o, rfl⟩ := h.exists_eq
  exact hu

theorem runAll_framer_of_sameTick :
    runAll (s.decoded (.up s.line.uw) ++ s.framerOps) u = .next (s.afterFramer u) := by
  have hu := runAll_framer u (h.live hl)
  obtain ⟨n, q, d, c, a, o, rfl⟩ := h.exists_eq
  exact hu

theorem runAll_receive_of_sameTick (hq : u.nxt.rxq = s.queueAfterPop) :
    runAll (s.decoded (.beat s.line.bw) ++ s.rxOps) u = .next (s.afterReceive u) := by
  have hu := runAll_receive u (h.live hl)
  obtain ⟨n, q, d, c, a, o, rfl⟩ := h.exists_eq
  exact hu hq

theorem runAll_requested_of_sameTick (hr : s.Requests u) (hs : u.nxt.slots = s.cur.slots) (hd : u.dels = []) :
    ∃ ds, runAll u.requested u = .next { s.afterRequests u with dels := ds } := by
  obtain ⟨n, q, d, c, a, o, rfl⟩ := h.exists_eq
  exact runAll_requested _ (by exact hl) ⟨hr.delA, hr.delB, hr.store, hr.bytes, hr.send⟩ hs hd

end Stages


/-- The registers when the requests and expiries of the tick are still to come. -/
def State.regsBeforeRequests (s : State) : Regs :=
  { s.liveRegs with
      slots := s.cur.slots
      replayTimer := if s.ackEffective then 0 else if s.passStart then 0 else s.cur.replayTimer
      replayReq := if s.naks then true else s.replayReqKept s.cur.replayReq
      rpBusy := s.rpBusyKept s.cur.rpBusy, rpPos := s.rpPosKept s.cur.rpPos, rpBytes := s.rpBytesKept s.cur.rpBytes
      ackTimer := if s.scheduledNow.isSome then 0 else s.cur.ackTimer
      ctlPending := s.scheduledNow.isSome || s.ctlPendingKept s.cur.ctlPending
      ctlPositive := (s.scheduledNow.map Prod.fst).getD s.cur.ctlPositive
      ctlId := (s.scheduledNow.map Prod.snd).getD s.cur.ctlId }

/-- The state when the requests and expiries of the tick are still to come. -/
def State.beforeRequests (s : State) : State :=
  { s with
      nxt := s.regsBeforeRequests
      req :=
        { store := if s.completes then reqWord true s.cur.nts else 0
          storeBytes := if s.completes then s.cur.txStage ++ be32 s.cur.txCrc else []
          delA :=
            if s.ackEffective then rangeWord true (s.cur.unacked.headD (ctlWordId s.line.cw)) (ctlWordId s.line.cw) else 0
          delB := if s.aborts then reqWord true s.cur.nts else 0
          query := s.cur.rpId
          send := if s.passSends then reqWord true s.cur.rpId else 0 }
      dels := [], schedd := s.scheduledNow.isSome
      ans := { Answers.none with qHit := (find s.cur.slots s.cur.rpId).isSome }
      out := s.liveOut }

theorem beforeRequests_eq_stages (s : State) :
    s.afterReceive (s.afterFramer (s.afterControl (s.afterReplay (s.afterHandOver (s.afterPop
      (s.afterStatus s.beginTick)))))) = s.beforeRequests := by
  simp only [State.beforeRequests, State.regsBeforeRequests, State.liveRegs, State.liveOut, State.afterReceive,
    State.afterFramer, State.afterControl, State.afterReplay, State.afterHandOver, State.afterPop, State.afterStatus,
    State.beginTick, RbqPorts.idle, Bool.or_false]

theorem runAll_liveOps (s : State) (hl : s.line.live = true) :
    runAll s.beginTick.liveOps s.beginTick = .next s.beforeRequests := by
  have hops : s.beginTick.liveOps =
      (([.status] ++ s.beginTick.decoded (.query s.beginTick.req.query)) ++
      (s.decoded (.pop (BitVec.ofBool s.line.rxqPop)) ++
      (s.decoded (.ctlOut (ctlWord s.cur.ctlPending s.cur.ctlPositive s.cur.ctlId)) ++
      (s.replayOps ++
      (s.decoded (.ctl s.line.cw) ++
      ((s.decoded (.up s.line.uw) ++ s.framerOps) ++
      (s.decoded (.beat s.line.bw) ++ s.rxOps))))))) := by
    simp only [← List.append_assoc]
    rfl
  have h0 : s.SameTick s.beginTick := ⟨rfl, rfl, rfl⟩
  have h1 : s.SameTick (s.afterStatus s.beginTick) := ⟨h0.par, h0.cur, h0.inputs⟩
  have h2 : s.SameTick (s.afterPop (s.afterStatus s.beginTick)) := ⟨h1.par, h1.cur, h1.inputs⟩
  have h3 : s.SameTick (s.afterHandOver (s.afterPop (s.afterStatus s.beginTick))) := ⟨h2.par, h2.cur, h2.inputs⟩
  rw [hops, ← beforeRequests_eq_stages]
  have hst : runAll ([.status] ++ s.beginTick.decoded (.query s.beginTick.req.query)) s.beginTick =
      .next (s.afterStatus s.beginTick) := runAll_status s.beginTick hl
  refine runAll_append_of hst ?_
  refine runAll_append_of (runAll_pop_of_sameTick h1 hl rfl) ?_
  refine runAll_append_of (runAll_handOver_of_sameTick h2 hl) ?_
  generalize hu3 : s.afterHandOver (s.afterPop (s.afterStatus s.beginTick)) = u3 at h3 ⊢
  have h4 : s.SameTick (s.afterReplay u3) := ⟨h3.par, h3.cur, h3.inputs⟩
  have h5 : s.SameTick (s.afterControl (s.afterReplay u3)) := ⟨h4.par, h4.cur, h4.inputs⟩
  have h6 : s.SameTick (s.afterFramer (s.afterControl (s.afterReplay u3))) := ⟨h5.par, h5.cur, h5.inputs⟩
  refine runAll_append_of (runAll_replayOps_of_sameTick h3 hl) ?_
  refine runAll_append_of (runAll_control_of_sameTick h4 hl) ?_
  refine runAll_append_of (runAll_framer_of_sameTick h5 hl) ?_
  exact runAll_receive_of_sameTick h6 hl (by rw [← hu3]; rfl)

theorem beforeRequests_requests (s : State) : s.Requests s.beforeRequests where
  delA := rfl
  delB := rfl
  store := rfl
  bytes h := if_pos h
  send := rfl

/-- The expiries depend on the tick, on `unacked` after it, and on whether a message was scheduled (R210, R240). -/
theorem expiries_of_sameTick {s u : State} (h : s.SameTick u)
    (hu : u.nxt.unacked = s.unackedPushed (s.unackedKept s.cur.unacked)) (hc : u.schedd = s.scheduledNow.isSome) :
    u.replayExpires = s.beforeExpiry.replayExpires ∧ u.replayTimerNext = s.beforeExpiry.replayTimerNext ∧
      u.ackExpires = s.beforeExpiry.ackExpires ∧ u.ackTimerNext = s.beforeExpiry.ackTimerNext ∧
      u.keepaliveSends = s.beforeExpiry.keepaliveSends := by
  obtain ⟨n, q, d, c, a, o, rfl⟩ := h.exists_eq
  have hheld : State.replayTimerHeld { s with nxt := n, req := q, dels := d, schedd := c, ans := a, out := o } =
      s.beforeExpiry.replayTimerHeld := by
    simp only [State.replayTimerHeld, State.beforeExpiry]
    rw [← hu]
    rfl
  have hexp : State.replayExpires { s with nxt := n, req := q, dels := d, schedd := c, ans := a, out := o } =
      s.beforeExpiry.replayExpires := by
    simp only [State.replayExpires, hheld]; rfl
  have hack : State.ackExpires { s with nxt := n, req := q, dels := d, schedd := c, ans := a, out := o } =
      s.beforeExpiry.ackExpires := by
    simp only [State.ackExpires, State.beforeExpiry]
    rw [← hc]
    rfl
  refine ⟨hexp, ?_, hack, ?_, ?_⟩
  · simp only [State.replayTimerNext, hheld, hexp]; rfl
  · simp only [State.ackTimerNext, hack]
    rw [show s.beforeExpiry.schedd = _ from hc.symm]
    rfl
  · simp only [State.keepaliveSends, hack]; rfl


/-- A tick with the link up. -/
theorem step_of_live (s : State) (hw : s.par.wf = true) (hl : s.line.live = true) :
    step s = .next
      { s with
          cur := s.liveRegs, nxt := s.liveRegs, req := RbqPorts.idle, dels := [], schedd := false
          ans := { Answers.none with qHit := (find s.cur.slots s.cur.rpId).isSome }
          out := s.liveOut, inputs := s.inputs.tail } := by
  have h0 : s.SameTick s.beforeRequests := ⟨rfl, rfl, rfl⟩
  obtain ⟨ds, hr⟩ := runAll_requested_of_sameTick h0 hl (beforeRequests_requests s) rfl rfl
  generalize hu : ({ s.afterRequests s.beforeRequests with dels := ds } : State) = u at hr
  have hs : s.SameTick u := by rw [← hu]; exact ⟨rfl, rfl, rfl⟩
  obtain ⟨h1, h2, h3, h4, h5⟩ := expiries_of_sameTick hs (by rw [← hu]; rfl) (by rw [← hu]; rfl)
  have hrun : runTick s.beginTick = .next u.afterTimeout.afterKeepalive := by
    rw [runTick, selected_of_live s.beginTick hl, runAll_liveOps s hl, andThen_next, hr, andThen_next,
      runAll_expired u (hs.live hl)]
  have hl' : u.afterTimeout.afterKeepalive.line.live = true := hs.live hl
  have ht : u.afterTimeout.afterKeepalive.replayTimerNext = u.replayTimerNext := rfl
  have ha : u.afterTimeout.afterKeepalive.ackTimerNext = u.ackTimerNext := rfl
  have hk : u.afterTimeout.keepaliveSends = u.keepaliveSends := rfl
  rw [step_of_wf s hw, hrun, andThen_next, State.clockTimers, if_pos hl', ht, ha, h2, h4]
  simp only [State.afterKeepalive, hk, h5, State.write, State.endTick]
  simp only [State.afterTimeout, h1]
  simp only [← hu, State.afterRequests, State.beforeRequests, State.regsBeforeRequests, State.liveRegs]

/-- A tick with the link down (R262, R263). -/
theorem step_of_down (s : State) (hw : s.par.wf = true) (hl : s.line.live = false) :
    step s = .next
      { s with
          cur := Regs.reset s.par, nxt := Regs.reset s.par, req := RbqPorts.idle, dels := [], schedd := false
          ans := Answers.none, out := PortOut.zero, inputs := s.inputs.tail } := by
  have hd : (s.line.rst || !s.line.linkUp) = true := by
    cases h1 : s.line.rst <;> cases h2 : s.line.linkUp <;> simp_all [Line.live]
  have hsel : s.beginTick.selected = [.linkDown s.line.rst s.line.linkUp] := by
    have hdec : decode s.decodeCtx (.link (linkWord s.line.rst s.line.linkUp)) =
        .instr (.linkDown s.line.rst s.line.linkUp) := by
      simp only [decode, linkWordRst_linkWord, linkWordUp_linkWord, hd, if_true]
    have hb : decode s.beginTick.decodeCtx (.link (linkWord s.beginTick.line.rst s.beginTick.line.linkUp)) = _ := hdec
    simp only [State.selected, hb]
  have hx : exec (.linkDown s.line.rst s.line.linkUp) s.beginTick = .next s.beginTick.resetNow := by
    simp only [exec, execLinkDown, always, hd, if_true]
  have hreq : runAll s.beginTick.resetNow.requested s.beginTick.resetNow = .next s.beginTick.resetNow := by
    have hA : s.beginTick.resetNow.req.delA = 0 := rfl
    have hB : s.beginTick.resetNow.req.delB = 0 := rfl
    have hS : s.beginTick.resetNow.req.store = 0 := rfl
    have hD : s.beginTick.resetNow.req.send = 0 := rfl
    simp only [State.requested, State.decoded, decode, hA, hB, hS, hD, reqWordValid_zero, rangeWordValid_zero,
      Bool.false_eq_true, if_false]
    rfl
  have hexp : s.beginTick.resetNow.expired = [] := by
    have h : s.beginTick.resetNow.line.live = false := hl
    simp only [State.expired, h, Bool.false_eq_true, if_false]
  have hrun : runTick s.beginTick = .next s.beginTick.resetNow := by
    rw [runTick, hsel, runAll_singleton, hx, andThen_next, hreq, andThen_next, hexp, runAll_nil]
  have hc : s.beginTick.resetNow.clockTimers = s.beginTick.resetNow :=
    if_neg (by rw [show s.beginTick.resetNow.line = s.line from rfl, hl]; decide)
  rw [step_of_wf s hw, hrun, andThen_next, hc]
  rfl

/-- A step of a block with the link up, from its result. -/
theorem step_next_of_live {s t : State} (hl : s.line.live = true) (h : step s = .next t) :
    t.par = s.par ∧ t.cur = s.liveRegs ∧ t.out = s.liveOut := by
  rw [step_of_live s (step_eq_next s t h).1 hl] at h
  obtain rfl : _ = t := by simpa using h
  exact ⟨rfl, rfl, rfl⟩

/-- A step of a block with the link down, from its result. -/
theorem step_next_of_down {s t : State} (hl : s.line.live = false) (h : step s = .next t) :
    t.par = s.par ∧ t.cur = Regs.reset s.par ∧ t.out = PortOut.zero := by
  rw [step_of_down s (step_eq_next s t h).1 hl] at h
  obtain rfl : _ = t := by simpa using h
  exact ⟨rfl, rfl, rfl⟩

/-- R44: no step changes the parameters. -/
theorem step_next_par {s t : State} (h : step s = .next t) : t.par = s.par := by
  rcases Bool.eq_false_or_eq_true s.line.live with hl | hl
  · exact (step_next_of_live hl h).1
  · exact (step_next_of_down hl h).1

end Sys2Proof.Machine
end

section
namespace Sys2Proof.Machine

/-! ## Ownership, R45 -/

/-- What a receive engine sees of the block: its own registers and its own ports, the rest as after reset. -/
def State.receiveView (s : State) : State :=
  { State.resetWith s.par
      [{ Line.idle with
          rst := s.line.rst, linkUp := s.line.linkUp, bw := s.line.bw, ctlTxReady := s.line.ctlTxReady, rxqPop := s.line.rxqPop }]
    with cur := (Regs.reset s.par).withReceiverOf s.cur }

/-- What the transmit engine and the retry buffer see of the block. -/
def State.transmitView (s : State) : State :=
  { State.resetWith s.par
      [{ Line.idle with
          rst := s.line.rst, linkUp := s.line.linkUp, uw := s.line.uw, txReady := s.line.txReady, cw := s.line.cw }]
    with cur := s.cur.withReceiverOf (Regs.reset s.par) }

/-- The receive engine's registers after a tick are those of its view: each of them reads registers and ports of the view. -/
theorem liveRegs_sameReceive_view (s : State) : s.liveRegs.sameReceive s.receiveView.liveRegs := by
  simp only [Regs.sameReceive, Regs.withReceiverOf, State.liveRegs]
  congr 1

/-- The transmit side's registers after a tick are those of its view. -/
theorem liveRegs_sameTransmit_view (s : State) : s.liveRegs.sameTransmit s.transmitView.liveRegs := by
  simp only [Regs.sameTransmit, Regs.withReceiverOf, State.liveRegs]
  congr 1

theorem receiveView_congr {s s' : State} (hp : s.par = s'.par) (hc : s.cur.sameReceive s'.cur)
    (hi : s.line.sameReceive s'.line) : s.receiveView = s'.receiveView := by
  obtain ⟨h1, h2, h3, h4, h5⟩ := hi
  have hcur : (Regs.reset s'.par).withReceiverOf s.cur = (Regs.reset s'.par).withReceiverOf s'.cur := by
    rw [← hc]; rfl
  simp only [State.receiveView, hp, h1, h2, h3, h4, h5, hcur]

theorem transmitView_congr {s s' : State} (hp : s.par = s'.par) (hc : s.cur.sameTransmit s'.cur)
    (hi : s.line.sameTransmit s'.line) : s.transmitView = s'.transmitView := by
  obtain ⟨h1, h2, h3, h4, h5⟩ := hi
  have hcur : s.cur.withReceiverOf (Regs.reset s'.par) = s'.cur.withReceiverOf (Regs.reset s'.par) := by
    rw [← hc]; rfl
  simp only [State.transmitView, hp, h1, h2, h3, h4, h5, hcur]

/-- Register files that agree with one file on the receive engine's registers agree with each other on them. -/
theorem sameReceive_of_common {a b c : Regs} (ha : a.sameReceive c) (hb : b.sameReceive c) : a.sameReceive b := by
  have h : a.withReceiverOf b = (a.withReceiverOf b).withReceiverOf c := by rw [← hb]; rfl
  exact h.trans ha

theorem sameTransmit_of_common {a b c : Regs} (ha : a.sameTransmit c) (hb : b.sameTransmit c) : a.sameTransmit b := by
  have h : a.withReceiverOf b = (a.withReceiverOf c).withReceiverOf b := rfl
  rw [Regs.sameTransmit, h, ha, ← hb]
  rfl

theorem step_sameReceive {s s' t t' : State} (hp : s.par = s'.par) (hc : s.cur.sameReceive s'.cur)
    (hi : s.line.sameReceive s'.line) (ht : step s = .next t) (ht' : step s' = .next t') : t.cur.sameReceive t'.cur := by
  have hlive : s.line.live = s'.line.live := by simp only [Line.live, hi.1, hi.2.1]
  rcases Bool.eq_false_or_eq_true s.line.live with hl | hl
  · obtain ⟨-, hr, -⟩ := step_next_of_live hl ht
    obtain ⟨-, hr', -⟩ := step_next_of_live (hlive.symm.trans hl) ht'
    rw [hr, hr']
    refine sameReceive_of_common (liveRegs_sameReceive_view s) ?_
    rw [receiveView_congr hp hc hi]
    exact liveRegs_sameReceive_view s'
  · obtain ⟨-, hr, -⟩ := step_next_of_down hl ht
    obtain ⟨-, hr', -⟩ := step_next_of_down (hlive.symm.trans hl) ht'
    rw [hr, hr', hp]
    rfl

theorem step_sameTransmit {s s' t t' : State} (hp : s.par = s'.par) (hc : s.cur.sameTransmit s'.cur)
    (hi : s.line.sameTransmit s'.line) (ht : step s = .next t) (ht' : step s' = .next t') : t.cur.sameTransmit t'.cur := by
  have hlive : s.line.live = s'.line.live := by simp only [Line.live, hi.1, hi.2.1]
  rcases Bool.eq_false_or_eq_true s.line.live with hl | hl
  · obtain ⟨-, hr, -⟩ := step_next_of_live hl ht
    obtain ⟨-, hr', -⟩ := step_next_of_live (hlive.symm.trans hl) ht'
    rw [hr, hr']
    refine sameTransmit_of_common (liveRegs_sameTransmit_view s) ?_
    rw [transmitView_congr hp hc hi]
    exact liveRegs_sameTransmit_view s'
  · obtain ⟨-, hr, -⟩ := step_next_of_down hl ht
    obtain ⟨-, hr', -⟩ := step_next_of_down (hlive.symm.trans hl) ht'
    rw [hr, hr', hp]
    rfl

/-- Settles O54: each side's registers after a tick are a function of that side's view of the block. -/
theorem enginesOwnDisjointState : Obligations.EnginesOwnDisjointState :=
  ⟨fun _ _ _ _ hp hc hi ht ht' => step_sameReceive hp hc hi ht ht',
    fun _ _ _ _ hp hc hi ht ht' => step_sameTransmit hp hc hi ht ht'⟩

end Sys2Proof.Machine
end

section
namespace Sys2Proof.Machine

/-! ## Reset, R49 -/

/-- R49: every slot is free after reset. -/
theorem reset_slots_free (p : Params) : ∀ sl ∈ (Regs.reset p).slots, sl.occ = false := fun _ h => by
  rw [List.eq_of_mem_replicate h]; rfl

theorem reset_slots_length (p : Params) : (Regs.reset p).slots.length = p.nSlots := List.length_replicate

/-- Settles O40. -/
theorem resetValues : Obligations.ResetValues :=
  ⟨⟨Config.d59, [], rfl⟩, fun p _ =>
    ⟨rfl, rfl, rfl, rfl, rfl, rfl, rfl, rfl, rfl, rfl, rfl, rfl, rfl, rfl, rfl, rfl, reset_slots_length p, reset_slots_free p,
      rfl, rfl, rfl, rfl, rfl, rfl, rfl, rfl, rfl, rfl, rfl⟩⟩

theorem wf_iff (p : Params) :
    p.wf = true ↔ 1 ≤ p.nSlots ∧ 1 ≤ p.rxCap ∧ 1 ≤ p.maxPayload ∧ 1 ≤ p.replayLimit ∧ 1 ≤ p.ackLimit := by
  simp only [Params.wf, Bool.and_eq_true, decide_eq_true_eq, and_assoc]

theorem occCount_of_free (slots : List Slot) (h : ∀ sl ∈ slots, sl.occ = false) : occCount slots = 0 := by
  rw [occCount, List.countP_eq_zero]
  intro sl hm
  simp [h sl hm]

/-- R48 in the reset state. -/
theorem reset_consistent (p : Params) (hw : p.wf = true) : (Regs.reset p).Consistent p where
  consecutive := rfl
  matched :=
    ⟨fun sl hm ho => absurd ho (by simp [reset_slots_free p sl hm]), fun _ hi => absurd hi List.not_mem_nil,
      occCount_of_free _ (reset_slots_free p), Nat.zero_le _⟩
  distinct := by
    rw [Regs.slotIdsDistinct, List.pairwise_iff_forall_sublist]
    intro a b hs hab
    have ha := reset_slots_free p a (hs.subset List.mem_cons_self)
    simp [ha] at hab
  room := fun _ => ((wf_iff p).mp hw).2.1
  framerIdle := fun _ => rfl
  busy := fun h => absurd h Bool.false_ne_true

/-- Whatever else a state holds, reset registers meet the invariant. -/
theorem inv_of_reset (s : State) (hw : s.par.wf = true) (hc : s.cur = Regs.reset s.par) : s.Inv where
  build := hw
  consistent := hc ▸ reset_consistent s.par hw
  frames := by
    rw [hc]
    exact ⟨reset_slots_length _, fun sl hm ho => absurd ho (by simp [reset_slots_free _ sl hm])⟩
  window := by
    have h : (4095 : Seq) = 0 - BitVec.ofNat 12 0 - 1 := by decide
    rw [hc]
    exact ⟨h, Nat.zero_le _⟩
  framer := by
    rw [hc]
    exact ⟨fun _ => rfl, nofun, nofun, fun h => absurd rfl h, fun h => absurd rfl h⟩
  pass := by rw [hc]; exact ⟨nofun, nofun⟩
  receiver := by
    rw [hc]
    exact ⟨Nat.zero_le _, fun _ => ⟨rfl, rfl, rfl⟩, Nat.zero_le _, fun _ h => absurd h List.not_mem_nil⟩
  timers := by
    obtain ⟨-, -, -, hr, ha⟩ := (wf_iff _).mp hw
    rw [hc]
    exact ⟨hr, ha⟩

/-- Settles O55. -/
theorem invAtReset : Obligations.InvAtReset := fun p lines hw => inv_of_reset (State.resetWith p lines) hw rfl

end Sys2Proof.Machine
end

section
namespace Sys2Proof.Machine

/-! ## Every tick keeps the invariant, R48 -/

/-! ### The outstanding ids, R48 (a) -/

/-- The `n` ids before `nts`, oldest first (R21, R48 (a)). -/
def idsBefore (nts : Seq) (n : Nat) : List Seq :=
  (List.range n).map fun j => nts - BitVec.ofNat 12 n + BitVec.ofNat 12 j

@[simp] theorem idsBefore_length (nts : Seq) (n : Nat) : (idsBefore nts n).length = n := by simp [idsBefore]

theorem idsBefore_getElem (nts : Seq) (n j : Nat) (h : j < (idsBefore nts n).length) :
    (idsBefore nts n)[j] = nts - BitVec.ofNat 12 n + BitVec.ofNat 12 j := by simp [idsBefore]

/-- R180: the next id joins. -/
theorem idsBefore_succ (nts : Seq) (n : Nat) : idsBefore (nts + 1) (n + 1) = idsBefore nts n ++ [nts] := by
  have h : nts + 1 - BitVec.ofNat 12 (n + 1) = nts - BitVec.ofNat 12 n := by
    have h1 : (BitVec.ofNat 12 (n + 1) : Seq) = BitVec.ofNat 12 n + 1 := BitVec.ofNat_add n 1
    rw [h1]; ring
  simp only [idsBefore, List.range_succ, List.map_append, List.map_cons, List.map_nil, h, BitVec.sub_add_cancel]

/-- R205: the oldest ids leave. -/
theorem idsBefore_drop (nts : Seq) (n k : Nat) : (idsBefore nts n).drop k = idsBefore nts (n - k) := by
  apply List.ext_getElem
  · simp
  · intro j h1 h2
    have hk : k ≤ n := by simp at h1; omega
    have hn : (BitVec.ofNat 12 n : Seq) = BitVec.ofNat 12 (n - k) + BitVec.ofNat 12 k := by
      rw [← BitVec.ofNat_add, Nat.sub_add_cancel hk]
    rw [List.getElem_drop, idsBefore_getElem, idsBefore_getElem, BitVec.ofNat_add, hn]
    ring

/-- Within half the circle the ids differ from each other and from `nts`. -/
theorem idsBefore_succ_nodup (nts : Seq) (n : Nat) (hn : n ≤ 2047) : (idsBefore (nts + 1) (n + 1)).Nodup := by
  rw [idsBefore, List.nodup_map_iff_inj_on List.nodup_range]
  intro i hi j hj h
  rw [List.mem_range] at hi hj
  have h' := congrArg BitVec.toNat (add_left_cancel h)
  simpa [Nat.mod_eq_of_lt (show i < 4096 by omega), Nat.mod_eq_of_lt (show j < 4096 by omega)] using h'

theorem idsBefore_nodup (nts : Seq) (n : Nat) (hn : n ≤ 2047) : (idsBefore nts n).Nodup := by
  have h := idsBefore_succ_nodup nts n hn
  rw [idsBefore_succ] at h
  exact h.of_append_left

theorem not_mem_idsBefore (nts : Seq) (n : Nat) (hn : n ≤ 2047) : nts ∉ idsBefore nts n := by
  have h := idsBefore_succ_nodup nts n hn
  rw [idsBefore_succ] at h
  exact fun hm => List.disjoint_of_nodup_append h hm (List.mem_singleton_self nts)

/-- R143, R205: the range from the oldest id to one of the ids is the oldest part of them. -/
theorem seqRange_idsBefore (nts : Seq) (n k : Nat) (hn : n ≤ 2047) (hk : k < n) :
    seqRange (nts - BitVec.ofNat 12 n) (nts - BitVec.ofNat 12 n + BitVec.ofNat 12 k) = (idsBefore nts n).take (k + 1) := by
  have hd : (seqDist (nts - BitVec.ofNat 12 n + BitVec.ofNat 12 k) (nts - BitVec.ofNat 12 n)).toNat = k := by
    have : seqDist (nts - BitVec.ofNat 12 n + BitVec.ofNat 12 k) (nts - BitVec.ofNat 12 n) = BitVec.ofNat 12 k := by
      unfold seqDist; ring
    rw [this, BitVec.toNat_ofNat, Nat.mod_eq_of_lt (by omega)]
  rw [seqRange, hd, idsBefore, ← List.map_take, List.take_range, Nat.min_eq_left (by omega)]

end Sys2Proof.Machine
end

section
namespace Sys2Proof.Machine

/-! ### The slots, R48 (b), (c) -/

/-- R38: no two occupied slots hold the same id. -/
abbrev DistinctIds (slots : List Slot) : Prop :=
  slots.Pairwise fun a b => ¬ (a.occ = true ∧ b.occ = true ∧ a.id = b.id)

/-- An occupied slot holds the id `i`. -/
def Held (slots : List Slot) (i : Seq) : Prop := ∃ sl ∈ slots, sl.occ = true ∧ sl.id = i

theorem find_isSome_iff (slots : List Slot) (i : Seq) : (find slots i).isSome = true ↔ Held slots i := by
  simp [find, Held, List.findIdx?_isSome]

/-- With distinct ids `find` names the one slot that holds the id. -/
theorem find_eq_some_iff (slots : List Slot) (hd : DistinctIds slots) (k : Nat) (hk : k < slots.length) (i : Seq) :
    find slots i = some k ↔ slots[k].occ = true ∧ slots[k].id = i := by
  constructor
  · intro h
    obtain ⟨sl, hs, ho, hi⟩ := find_some slots i k h
    rw [List.getElem?_eq_getElem hk, Option.some.injEq] at hs
    exact hs ▸ ⟨ho, hi⟩
  · rintro ⟨ho, hi⟩
    rw [find, List.findIdx?_eq_some_iff_getElem]
    refine ⟨hk, by simp [ho, hi], fun j hj hp => ?_⟩
    have hp' : slots[j].occ = true ∧ slots[j].id = i := by simpa using hp
    exact List.pairwise_iff_getElem.mp hd j k (by omega) hk hj ⟨hp'.1, ho, hp'.2.trans hi.symm⟩

/-- The slot after a delete of `ids` (R143). -/
def Slot.freed (ids : List Seq) (sl : Slot) : Slot := if sl.occ && ids.contains sl.id then { sl with occ := false } else sl

theorem Slot.freed_occ (ids : List Seq) (sl : Slot) : (sl.freed ids).occ = (sl.occ && !ids.contains sl.id) := by
  unfold Slot.freed
  cases ho : sl.occ <;> cases hi : ids.contains sl.id <;> simp [ho]

@[simp] theorem Slot.freed_id (ids : List Seq) (sl : Slot) : (sl.freed ids).id = sl.id := by
  unfold Slot.freed; split <;> rfl

@[simp] theorem Slot.freed_bytes (ids : List Seq) (sl : Slot) : (sl.freed ids).bytes = sl.bytes := by
  unfold Slot.freed; split <;> rfl

theorem Slot.freed_occ_iff (ids : List Seq) (sl : Slot) : (sl.freed ids).occ = true ↔ sl.occ = true ∧ sl.id ∉ ids := by
  simp [Slot.freed_occ]

/-- With distinct ids a delete clears the slots that hold one of the ids. -/
theorem freeSlots_eq_map (slots : List Slot) (hd : DistinctIds slots) (ids : List Seq) :
    freeSlots slots ids = slots.map (Slot.freed ids) := by
  apply List.ext_getElem
  · simp [freeSlots]
  · intro k h1 h2
    have hk : k < slots.length := by simpa using h2
    have hany : (ids.any fun i => find slots i == some k) = (slots[k].occ && ids.contains slots[k].id) := by
      rw [Bool.eq_iff_iff]
      simp only [List.any_eq_true, beq_iff_eq, find_eq_some_iff slots hd k hk, Bool.and_eq_true, List.contains_iff_mem]
      constructor
      · rintro ⟨i, hi, ho, rfl⟩; exact ⟨ho, hi⟩
      · rintro ⟨ho, hi⟩; exact ⟨_, hi, ho, rfl⟩
    simp only [freeSlots, List.getElem_mapIdx, List.getElem_map, Slot.freed, hany]

@[simp] theorem freeSlots_length (slots : List Slot) (ids : List Seq) : (freeSlots slots ids).length = slots.length := by
  simp [freeSlots]

theorem held_map_freed (slots : List Slot) (ids : List Seq) (i : Seq) :
    Held (slots.map (Slot.freed ids)) i ↔ Held slots i ∧ i ∉ ids := by
  constructor
  · rintro ⟨sl, hm, ho, rfl⟩
    obtain ⟨sl0, hm0, rfl⟩ := List.mem_map.mp hm
    obtain ⟨ho0, hn⟩ := (Slot.freed_occ_iff ids sl0).mp ho
    rw [Slot.freed_id]
    exact ⟨⟨sl0, hm0, ho0, rfl⟩, hn⟩
  · rintro ⟨⟨sl, hm, ho, rfl⟩, hn⟩
    exact ⟨_, List.mem_map_of_mem hm, (Slot.freed_occ_iff ids sl).mpr ⟨ho, hn⟩, Slot.freed_id ids sl⟩

theorem distinct_map_freed (slots : List Slot) (ids : List Seq) (hd : DistinctIds slots) :
    DistinctIds (slots.map (Slot.freed ids)) := by
  rw [DistinctIds, List.pairwise_map]
  refine hd.imp fun {a b} h hab => h ?_
  obtain ⟨ha, hb, hi⟩ := hab
  rw [Slot.freed_id, Slot.freed_id] at hi
  exact ⟨((Slot.freed_occ_iff ids a).mp ha).1, ((Slot.freed_occ_iff ids b).mp hb).1, hi⟩

/-- A store into a free slot (R141). -/
theorem held_set (slots : List Slot) (k : Nat) (new : Slot) (hk : k < slots.length) (hf : slots[k].occ = false)
    (ho : new.occ = true) (i : Seq) : Held (slots.set k new) i ↔ Held slots i ∨ i = new.id := by
  constructor
  · rintro ⟨sl, hm, hs, rfl⟩
    rcases List.mem_or_eq_of_mem_set hm with hm | rfl
    · exact .inl ⟨sl, hm, hs, rfl⟩
    · exact .inr rfl
  · rintro (⟨sl, hm, hs, rfl⟩ | rfl)
    · obtain ⟨j, hj, rfl⟩ := List.mem_iff_getElem.mp hm
      have hne : k ≠ j := by rintro rfl; rw [hf] at hs; cases hs
      exact ⟨slots[j], List.mem_iff_getElem.mpr ⟨j, by simpa using hj, by simp [hne]⟩, hs, rfl⟩
    · exact ⟨new, List.mem_set hk new, ho, rfl⟩

theorem distinct_set (slots : List Slot) (k : Nat) (new : Slot) (hd : DistinctIds slots) (hn : ¬ Held slots new.id) :
    DistinctIds (slots.set k new) := by
  rw [DistinctIds, List.pairwise_iff_getElem]
  rintro i j hi hj hij ⟨h1, h2, h3⟩
  rw [List.length_set] at hi hj
  rw [List.getElem_set] at h1 h3
  rw [List.getElem_set] at h2 h3
  by_cases hki : k = i
  · have hkj : k ≠ j := by omega
    simp only [hkj, if_false] at h2 h3
    simp only [hki, if_true] at h3
    exact hn ⟨_, List.getElem_mem hj, h2, h3.symm⟩
  · by_cases hkj : k = j
    · simp only [hki, if_false] at h1 h3
      simp only [hkj, if_true] at h3
      exact hn ⟨_, List.getElem_mem hi, h1, h3⟩
    · simp only [hki, hkj, if_false] at h1 h2 h3
      exact List.pairwise_iff_getElem.mp hd i j hi hj hij ⟨h1, h2, h3⟩

/-- Distinct slots that hold exactly the ids of a list without repetition are as many as the list is long. -/
theorem occCount_eq_length (slots : List Slot) (hd : DistinctIds slots) (ids : List Seq) (hn : ids.Nodup)
    (h : ∀ i, Held slots i ↔ i ∈ ids) : occCount slots = ids.length := by
  have hnd : ((slots.filter fun sl => sl.occ).map Slot.id).Nodup := by
    rw [List.Nodup, List.pairwise_map]
    refine List.Pairwise.imp_of_mem ?_ (hd.sublist List.filter_sublist)
    intro a b ha hb hab hid
    exact hab ⟨(List.mem_filter.mp ha).2, (List.mem_filter.mp hb).2, hid⟩
  have hp : ((slots.filter fun sl => sl.occ).map Slot.id).Perm ids := by
    rw [List.perm_ext_iff_of_nodup hnd hn]
    intro i
    rw [← h i, List.mem_map]
    constructor
    · rintro ⟨sl, hm, rfl⟩
      exact ⟨sl, (List.mem_filter.mp hm).1, (List.mem_filter.mp hm).2, rfl⟩
    · rintro ⟨sl, hm, ho, rfl⟩
      exact ⟨sl, List.mem_filter.mpr ⟨hm, ho⟩, rfl⟩
  rw [← hp.length_eq, List.length_map, occCount, List.countP_eq_length_filter]

/-- A buffer that is not full has a free slot (R69). -/
theorem firstFree_isSome (slots : List Slot) (h : occCount slots < slots.length) : ∃ k, firstFree slots = some k := by
  rw [← Option.isSome_iff_exists, firstFree, List.findIdx?_isSome, List.any_eq_true]
  by_contra hc
  push Not at hc
  have hall : ∀ sl ∈ slots, sl.occ = true := fun sl hm => by simpa using hc sl hm
  rw [occCount, List.countP_eq_length.mpr hall] at h
  exact lt_irrefl _ h

/-- R48 (b): held are exactly the outstanding ids. -/
theorem held_iff_of_consistent {p : Params} {r : Regs} (h : r.Consistent p) (i : Seq) : Held r.slots i ↔ i ∈ r.unacked := by
  obtain ⟨h1, h2, -⟩ := h.matched
  refine ⟨?_, fun hi => (find_isSome_iff _ _).mp (h2 i hi)⟩
  rintro ⟨sl, hm, ho, rfl⟩
  exact h1 sl hm ho

end Sys2Proof.Machine
end

section
namespace Sys2Proof.Machine

/-- Where an outstanding id stands (R48 (a)). -/
theorem idsBefore_idxOf (nts : Seq) (n : Nat) (x : Seq) (hx : x ∈ idsBefore nts n) :
    (idsBefore nts n).idxOf x < n ∧
      x = nts - BitVec.ofNat 12 n + BitVec.ofNat 12 ((idsBefore nts n).idxOf x) := by
  have hlt := List.idxOf_lt_length_of_mem hx
  refine ⟨by simpa using hlt, ?_⟩
  rw [← idsBefore_getElem nts n _ hlt, List.getElem_idxOf]

theorem idsBefore_headD (nts : Seq) (n : Nat) (x : Seq) (hn : 0 < n) :
    (idsBefore nts n).headD x = nts - BitVec.ofNat 12 n := by
  obtain ⟨n, rfl⟩ := Nat.exists_eq_add_of_lt hn
  simp [idsBefore, List.range_succ_eq_map]

theorem framing_of_completes (s : State) (hc : s.completes = true) : s.framing .crc3 = true := by
  simp only [State.completes, Bool.and_eq_true] at hc
  exact hc.1.1

section Window
variable {s : State} (h : s.Inv)
include h

theorem State.Inv.unacked_eq : s.cur.unacked = idsBefore s.cur.nts s.cur.unacked.length := h.consistent.consecutive

theorem State.Inv.unacked_nodup : s.cur.unacked.Nodup := by
  rw [h.unacked_eq]; exact idsBefore_nodup _ _ h.window.2

theorem State.Inv.nts_not_mem : s.cur.nts ∉ s.cur.unacked := by
  rw [h.unacked_eq]; exact not_mem_idsBefore _ _ h.window.2

theorem State.Inv.rbCount_eq : s.rbCount = s.cur.unacked.length := h.consistent.matched.2.2.1

/-- R205: an effective ACK, if there is one, releases the oldest ids and moves `last_acked` along. -/
theorem State.Inv.kept_of_ack :
    ∃ m ≤ s.cur.unacked.length, s.unackedKept s.cur.unacked = idsBefore s.cur.nts m ∧
      s.ackedIds = s.cur.unacked.take (s.cur.unacked.length - m) ∧
      s.lastAckedNext s.cur.lastAcked = s.cur.nts - BitVec.ofNat 12 m - 1 := by
  have hu := h.unacked_eq
  rcases Bool.eq_false_or_eq_true s.ackEffective with ha | ha
  case inr =>
    refine ⟨_, le_rfl, ?_, ?_, ?_⟩
    · simpa [State.unackedKept, ha] using hu
    · simp [State.ackedIds, ha]
    · simpa [State.lastAckedNext, ha] using h.window.1
  case inl =>
    have hmem : ctlWordId s.line.cw ∈ s.cur.unacked := by
      simp only [State.ackEffective, State.ackEff, Bool.and_eq_true, List.contains_iff_mem] at ha
      exact ha.2
    simp only [State.unackedKept, State.ackedIds, State.lastAckedNext, ha, if_true]
    generalize ctlWordId s.line.cw = x at hmem
    have hn2047 := h.window.2
    generalize s.cur.unacked.length = n at hu hn2047
    rw [hu] at hmem ⊢
    obtain ⟨hk, hx⟩ := idsBefore_idxOf _ _ _ hmem
    generalize (idsBefore s.cur.nts n).idxOf x = k at hk hx
    refine ⟨n - (k + 1), Nat.sub_le _ _, idsBefore_drop _ _ _, ?_, ?_⟩
    · rw [idsBefore_headD _ _ _ (by omega), hx, seqRange_idsBefore _ _ _ hn2047 hk]
      congr 1
      omega
    · have hsum : (BitVec.ofNat 12 n : Seq) = BitVec.ofNat 12 (n - (k + 1)) + (BitVec.ofNat 12 k + 1) := by
        have h1 : (BitVec.ofNat 12 (k + 1) : Seq) = BitVec.ofNat 12 k + 1 := BitVec.ofNat_add k 1
        rw [← h1, ← BitVec.ofNat_add, Nat.sub_add_cancel hk]
      rw [hx, hsum]
      ring

/-- A frame that completes found room in the window and in the buffer (R172). -/
theorem State.Inv.room_of_framing {f : FrState} (hf : s.framing f = true) (hne : f ≠ .idle) :
    s.cur.unacked.length < s.par.nSlots ∧ s.cur.unacked.length < 2047 := by
  obtain ⟨-, -, -, -, hroom⟩ := h.framer
  exact hroom (by rw [((framing_iff s f).mp hf).2]; exact hne)

/-- R48 (a), R22, R125: the window after a tick. -/
theorem State.Inv.window_next :
    ∃ m, s.liveRegs.unacked = idsBefore s.liveRegs.nts m ∧
      s.liveRegs.lastAcked = s.liveRegs.nts - BitVec.ofNat 12 m - 1 ∧ m ≤ s.par.nSlots ∧ m ≤ 2047 := by
  obtain ⟨m, hm, hk, -, hl⟩ := h.kept_of_ack
  obtain ⟨-, -, -, hcap⟩ := h.consistent.matched
  have hwin := h.window.2
  simp only [State.liveRegs, hk, hl, State.unackedPushed, State.ntsNext]
  rcases Bool.eq_false_or_eq_true s.completes with hc | hc
  · obtain ⟨h1, h2⟩ := h.room_of_framing (framing_of_completes s hc) (by decide)
    refine ⟨m + 1, ?_, ?_, by omega, by omega⟩
    · simp only [hc, if_true, seqInc, idsBefore_succ]
    · have h3 : (BitVec.ofNat 12 (m + 1) : Seq) = BitVec.ofNat 12 m + 1 := BitVec.ofNat_add m 1
      simp only [hc, if_true, seqInc, h3]
      ring
  · exact ⟨m, by simp [hc], by simp [hc], by omega, by omega⟩

/-- R141: a completed frame finds a free slot, and its id is not held. -/
theorem State.Inv.slotTaken_eq :
    (s.completes = false ∧ s.slotTaken = none) ∨
      ∃ k, ∃ hk : k < s.cur.slots.length, s.completes = true ∧ s.slotTaken = some k ∧ s.cur.slots[k].occ = false := by
  rcases Bool.eq_false_or_eq_true s.completes with hc | hc
  case inr => exact .inl ⟨hc, by simp [State.slotTaken, hc]⟩
  case inl =>
    obtain ⟨h1, -⟩ := h.room_of_framing (framing_of_completes s hc) (by decide)
    have hcount := h.rbCount_eq
    have hfull : s.rbFull = false := by simp only [State.rbFull, beq_eq_false_iff_ne]; omega
    have hfind : (find s.cur.slots s.cur.nts).isSome = false := by
      rw [← Bool.not_eq_true, find_isSome_iff, held_iff_of_consistent h.consistent]
      exact h.nts_not_mem
    obtain ⟨k, hk⟩ := firstFree_isSome s.cur.slots (by rw [h.frames.1]; exact lt_of_eq_of_lt hcount h1)
    obtain ⟨⟨sl, hs, hf⟩, -⟩ := firstFree_some _ _ hk
    obtain ⟨hlt, rfl⟩ := List.getElem?_eq_some_iff.mp hs
    exact .inr ⟨k, hlt, hc, by simp [State.slotTaken, hc, hfull, hfind, hk], hf⟩

theorem State.Inv.freeSlots_eq : freeSlots s.cur.slots (s.ackedIds ++ s.abortedIds) =
    s.cur.slots.map (Slot.freed (s.ackedIds ++ s.abortedIds)) :=
  freeSlots_eq_map _ h.consistent.distinct _

/-- What the slots hold between the deletes and the store. -/
theorem State.Inv.held_freed_iff (i : Seq) :
    Held (s.cur.slots.map (Slot.freed (s.ackedIds ++ s.abortedIds))) i ↔ i ∈ s.unackedKept s.cur.unacked := by
  obtain ⟨m, hm, hk, ha, -⟩ := h.kept_of_ack
  have hdrop : s.unackedKept s.cur.unacked = s.cur.unacked.drop (s.cur.unacked.length - m) := by
    rw [hk, h.unacked_eq, idsBefore_drop, idsBefore_length, Nat.sub_sub_self hm]
  have hnd := h.unacked_nodup
  have hnts := h.nts_not_mem
  rw [held_map_freed, held_iff_of_consistent h.consistent, hdrop, ha, List.mem_append, not_or]
  have hab : i ∈ s.abortedIds → i = s.cur.nts := by
    unfold State.abortedIds
    split <;> simp
  rw [← List.take_append_drop (s.cur.unacked.length - m) s.cur.unacked] at hnd
  constructor
  · rintro ⟨hi, hn, -⟩
    rw [← List.take_append_drop (s.cur.unacked.length - m) s.cur.unacked, List.mem_append] at hi
    exact hi.resolve_left hn
  · intro hi
    have hmem := List.mem_of_mem_drop hi
    exact ⟨hmem, fun ht => List.disjoint_of_nodup_append hnd ht hi, fun hx => hnts (hab hx ▸ hmem)⟩

/-- R48 (b): after a tick the slots hold the outstanding ids. -/
theorem State.Inv.held_next (i : Seq) : Held s.slotsNext i ↔ i ∈ s.liveRegs.unacked := by
  have hfreed := h.held_freed_iff i
  simp only [State.liveRegs, State.unackedPushed, State.slotsNext, h.freeSlots_eq]
  rcases h.slotTaken_eq with ⟨hc, ht⟩ | ⟨k, hk, hc, ht, hf⟩
  · simpa only [hc, ht, Bool.false_eq_true, if_false] using hfreed
  · have hocc : ((s.cur.slots.map (Slot.freed (s.ackedIds ++ s.abortedIds)))[k]'(by simpa using hk)).occ = false := by
      rw [List.getElem_map, Slot.freed_occ, hf, Bool.false_and]
    simp only [hc, ht, if_true]
    rw [held_set _ _ _ (by simpa using hk) hocc rfl, hfreed, List.mem_append, List.mem_singleton]
    rfl

/-- R48 (c): no two occupied slots hold the same id after a tick. -/
theorem State.Inv.distinct_next : DistinctIds s.slotsNext := by
  have hd := distinct_map_freed s.cur.slots (s.ackedIds ++ s.abortedIds) h.consistent.distinct
  simp only [State.slotsNext, h.freeSlots_eq]
  cases s.slotTaken with
  | none => exact hd
  | some k =>
    refine distinct_set _ _ _ hd ?_
    rw [held_map_freed, held_iff_of_consistent h.consistent]
    exact fun hx => h.nts_not_mem hx.1

/-- R37, R67: the slots hold frames after a tick. -/
theorem State.Inv.frames_next : s.liveRegs.slotsHoldFrames s.par := by
  obtain ⟨hlen, hbytes⟩ := h.frames
  have hfreed : ∀ sl ∈ freeSlots s.cur.slots (s.ackedIds ++ s.abortedIds), sl.occ = true →
      6 ≤ sl.bytes.length ∧ sl.bytes.length ≤ maxFrame s.par := by
    rw [h.freeSlots_eq]
    intro sl hm ho
    obtain ⟨sl0, hm0, rfl⟩ := List.mem_map.mp hm
    rw [Slot.freed_bytes]
    exact hbytes sl0 hm0 ((Slot.freed_occ_iff _ _).mp ho).1
  rcases h.slotTaken_eq with ⟨hc, ht⟩ | ⟨k, hk, hc, ht, -⟩
  · simp only [Regs.slotsHoldFrames, State.liveRegs, State.slotsNext, ht]
    exact ⟨by simpa using hlen, hfreed⟩
  · have hstage : 2 ≤ s.cur.txStage.length ∧ s.cur.txStage.length ≤ s.par.maxPayload + 2 := by
      obtain ⟨-, -, -, hcrc, -⟩ := h.framer
      have hf := ((framing_iff s _).mp (framing_of_completes s hc)).2
      exact hcrc (by simp [hf]) (by simp [hf]) (by simp [hf])
    simp only [Regs.slotsHoldFrames, State.liveRegs, State.slotsNext, ht]
    refine ⟨by simpa using hlen, fun sl hm ho => ?_⟩
    rcases List.mem_or_eq_of_mem_set hm with hm | rfl
    · exact hfreed sl hm ho
    · simp only [State.completedSlot, List.length_append, be32_length, maxFrame]
      omega

end Window

end Sys2Proof.Machine
end

section
namespace Sys2Proof.Machine

/-! ### The framer, R39, R172 to R184 -/

/-- The framer's registers, as R39 has them in each of its states. -/
theorem framerStaged_idle {p : Params} {r : Regs} (hf : r.frState = .idle) (hs : r.txStage = []) : r.framerStaged p := by
  simp [Regs.framerStaged, hf, hs]

theorem framerStaged_hdr1 {p : Params} {r : Regs} (hf : r.frState = .hdr1) (hs : r.txStage.length = 1)
    (hn : r.txNull = false) (hr : r.unacked.length < p.nSlots ∧ r.unacked.length < 2047) : r.framerStaged p := by
  simp [Regs.framerStaged, hf, hs, hn, hr]

theorem framerStaged_payload {p : Params} {r : Regs} (hf : r.frState = .payload)
    (hs : 2 ≤ r.txStage.length ∧ r.txStage.length < p.maxPayload + 2) (hn : r.txNull = false)
    (hr : r.unacked.length < p.nSlots ∧ r.unacked.length < 2047) : r.framerStaged p := by
  simp [Regs.framerStaged, hf, hs, hn, hr]

theorem framerStaged_trailer {p : Params} {r : Regs} (hf : r.inTrailer = true)
    (hs : 2 ≤ r.txStage.length ∧ r.txStage.length ≤ p.maxPayload + 2)
    (hr : r.unacked.length < p.nSlots ∧ r.unacked.length < 2047) : r.framerStaged p := by
  obtain ⟨h0, h1, h2⟩ : r.frState ≠ .idle ∧ r.frState ≠ .hdr1 ∧ r.frState ≠ .payload := by
    cases h : r.frState <;> simp [Regs.inTrailer, h] at hf <;> simp
  simp [Regs.framerStaged, h0, h1, h2, hs, hr]

/-- R171: the framer drives the stream in one of its states, or the replay controller does. -/
theorem framing_or_replaying (s : State) :
    (∃ f, s.framing f = true) ∨ ((∀ f, s.framing f = false) ∧ s.cur.rcState = .replaying) := by
  cases hr : s.cur.rcState
  · exact .inl ⟨s.cur.frState, by simp [State.framing, hr]⟩
  · exact .inr ⟨fun f => by simp [State.framing, hr], rfl⟩

/-- While the framer does not drive the stream its registers keep their values. -/
theorem framer_keeps (s : State) (h : ∀ f, s.framing f = false) :
    s.liveRegs.frState = s.cur.frState ∧ s.liveRegs.txStage = s.cur.txStage ∧ s.completes = false := by
  simp [State.liveRegs, State.frStateNext, State.txStageNext, State.frameStarts, State.canStart, State.canOpen,
    State.headerEnds, State.payloadEnds, State.overruns, State.byteTaken, State.starves, State.trailing, State.aborts,
    State.completes, h]

section Framer
variable {s : State} (h : s.Inv)
include h

theorem State.Inv.unacked_length_le (hc : s.completes = false) : s.liveRegs.unacked.length ≤ s.cur.unacked.length := by
  obtain ⟨m, hm, hk, -⟩ := h.kept_of_ack
  simpa [State.liveRegs, State.unackedPushed, hc, hk] using hm

/-- R172: a frame starts only where the window and the buffer have room. -/
theorem State.Inv.room_of_canStart (hc : s.canStart = true) :
    s.cur.unacked.length < s.par.nSlots ∧ s.cur.unacked.length < 2047 := by
  simp only [State.canStart, State.canOpen, State.winOpen, seqWinopen, Bool.and_eq_true, decide_eq_true_eq] at hc
  obtain ⟨⟨⟨-, hwin⟩, hcount⟩, -⟩ := hc
  obtain ⟨hla, hn⟩ := h.window
  have hd : seqDist s.cur.nts s.cur.lastAcked = BitVec.ofNat 12 (s.cur.unacked.length + 1) := by
    have h1 : (BitVec.ofNat 12 (s.cur.unacked.length + 1) : Seq) = BitVec.ofNat 12 s.cur.unacked.length + 1 :=
      BitVec.ofNat_add _ 1
    rw [h1, hla, seqDist]
    ring
  rw [hd, BitVec.toNat_ofNat, Nat.mod_eq_of_lt (by omega)] at hwin
  rw [h.rbCount_eq] at hcount
  exact ⟨hcount, by simp only [Config.half] at hwin; omega⟩

theorem State.Inv.framer_next_of_idle (hf : s.framing .idle = true) : s.liveRegs.framerStaged s.par := by
  have hE := fun g => framing_of s _ g hf
  have hcur := ((framing_iff s _).mp hf).2
  have hc : s.completes = false := by simp [State.completes, hE]
  have hlen := h.unacked_length_le hc
  rcases Bool.eq_false_or_eq_true s.frameStarts with hst | hst
  · have hcan : s.canStart = true := by simp only [State.frameStarts, Bool.and_eq_true] at hst; exact hst.1
    obtain ⟨h1, h2⟩ := h.room_of_canStart hcan
    refine framerStaged_hdr1 ?_ ?_ ?_ ⟨by omega, by omega⟩
    · simp [State.liveRegs, State.frStateNext, hst]
    · simp [State.liveRegs, State.txStageNext, hst]
    · simp [State.liveRegs, State.txNullNext, hst]
  · refine framerStaged_idle ?_ ?_
    · simp [State.liveRegs, State.frStateNext, hst, State.headerEnds, State.payloadEnds, State.overruns,
        State.byteTaken,
        State.starves, State.trailing, State.aborts, hc, hE, hcur]
    · simp [State.liveRegs, State.txStageNext, hst, State.headerEnds, State.byteTaken, State.aborts, hc, hE,
        h.framer.1 hcur]

theorem State.Inv.framer_next_of_hdr1 (hf : s.framing .hdr1 = true) : s.liveRegs.framerStaged s.par := by
  have hE := fun g => framing_of s _ g hf
  have hcur := ((framing_iff s _).mp hf).2
  have hc : s.completes = false := by simp [State.completes, hE]
  have hstart : s.frameStarts = false := by simp [State.frameStarts, State.canStart, State.canOpen, hE]
  have hlen := h.unacked_length_le hc
  obtain ⟨-, hhdr, -⟩ := h.framer
  obtain ⟨hstage, hnull⟩ := hhdr hcur
  obtain ⟨h1, h2⟩ := h.room_of_framing hf (by decide)
  have hwf := ((wf_iff _).mp h.build).2.2.1
  rcases Bool.eq_false_or_eq_true s.headerEnds with hst | hst
  · refine framerStaged_payload ?_ ?_ ?_ ⟨by omega, by omega⟩
    · simp [State.liveRegs, State.frStateNext, hst, hstart]
    · simp [State.liveRegs, State.txStageNext, hst, hstart, hstage]; omega
    · simp [State.liveRegs, State.txNullNext, hstart, State.aborts, State.overruns, State.byteTaken,
        State.starves, hE, hnull]
  · refine framerStaged_hdr1 ?_ ?_ ?_ ⟨by omega, by omega⟩
    · simp [State.liveRegs, State.frStateNext, hst, hstart, State.payloadEnds, State.overruns, State.byteTaken,
        State.starves, State.trailing, State.aborts, hc, hE, hcur]
    · simp [State.liveRegs, State.txStageNext, hst, hstart, State.byteTaken, State.aborts, hc, hE, hstage]
    · simp [State.liveRegs, State.txNullNext, hstart, State.aborts, State.overruns, State.byteTaken,
        State.starves, hE, hnull]

theorem State.Inv.framer_next_of_payload (hf : s.framing .payload = true) : s.liveRegs.framerStaged s.par := by
  have hE := fun g => framing_of s _ g hf
  have hcur := ((framing_iff s _).mp hf).2
  have hc : s.completes = false := by simp [State.completes, hE]
  have ha : s.aborts = false := by simp [State.aborts, hE]
  have hstart : s.frameStarts = false := by simp [State.frameStarts, State.canStart, State.canOpen, hE]
  have hhead : s.headerEnds = false := by simp [State.headerEnds, hE]
  have htr : s.trailing = false := by simp [State.trailing, hE]
  have hlen := h.unacked_length_le hc
  obtain ⟨-, -, hpay, -⟩ := h.framer
  obtain ⟨hlo, hhi, hnull⟩ := hpay hcur
  obtain ⟨h1, h2⟩ := h.room_of_framing hf (by decide)
  have hstage : s.liveRegs.txStage =
      if s.byteTaken then s.cur.txStage ++ [upWordData s.line.uw] else s.cur.txStage := by
    simp [State.liveRegs, State.txStageNext, hstart, hhead, ha, hc]
  rcases Bool.eq_false_or_eq_true (s.payloadEnds || s.overruns || s.starves) with hst | hst
  · refine framerStaged_trailer ?_ ?_ ⟨by omega, by omega⟩
    · simp [Regs.inTrailer, State.liveRegs, State.frStateNext, hst, hstart, hhead]
    · rw [hstage]
      split
      · simp; omega
      · omega
  · rw [Bool.or_eq_false_iff, Bool.or_eq_false_iff] at hst
    obtain ⟨⟨hend, hover⟩, hstarve⟩ := hst
    refine framerStaged_payload ?_ ?_ ?_ ⟨by omega, by omega⟩
    · simp [State.liveRegs, State.frStateNext, hstart, hhead, hend, hover, hstarve, htr, ha, hc, hcur]
    · rw [hstage]
      rcases Bool.eq_false_or_eq_true s.byteTaken with hb | hb
      · have hmax : s.atMax = false := by
          simp only [State.payloadEnds, hb, Bool.true_and] at hend
          simpa [State.overruns, hb, hend] using hover
        simp only [State.atMax, beq_eq_false_iff_ne] at hmax
        simp [hb]
        omega
      · simp only [hb, Bool.false_eq_true, if_false]
        exact ⟨hlo, hhi⟩
    · simp [State.liveRegs, State.txNullNext, hstart, ha, hover, hstarve, hnull]

theorem State.Inv.framer_next_of_trailing (ht : s.trailing = true) : s.liveRegs.framerStaged s.par := by
  obtain ⟨f, hf, hfs⟩ : ∃ f, s.framing f = true ∧ (f = .crc0 ∨ f = .crc1 ∨ f = .crc2) := by
    simp only [State.trailing, Bool.or_eq_true] at ht
    obtain (h0 | h1) | h2 := ht
    · exact ⟨_, h0, .inl rfl⟩
    · exact ⟨_, h1, .inr (.inl rfl)⟩
    · exact ⟨_, h2, .inr (.inr rfl)⟩
  have hE := fun g => framing_of s _ g hf
  have hcur := ((framing_iff s _).mp hf).2
  have hne : f ≠ .idle ∧ f ≠ .hdr1 ∧ f ≠ .payload ∧ f ≠ .crc3 := by
    rcases hfs with rfl | rfl | rfl <;> decide
  obtain ⟨n0, n1, n2, n3⟩ := hne
  have hquiet : s.frameStarts = false ∧ s.headerEnds = false ∧ s.byteTaken = false ∧ s.starves = false ∧
      s.aborts = false ∧ s.completes = false := by
    simp [State.frameStarts, State.canStart, State.canOpen, State.headerEnds, State.byteTaken, State.starves,
      State.aborts,
      State.completes, hE, n0, n1, n2, n3]
  obtain ⟨q0, q1, q2, q3, q4, q5⟩ := hquiet
  have hlen := h.unacked_length_le q5
  obtain ⟨-, -, -, hcrc, -⟩ := h.framer
  obtain ⟨h1, h2⟩ := h.room_of_framing hf n0
  refine framerStaged_trailer ?_ ?_ ⟨by omega, by omega⟩
  · have hnext : s.liveRegs.frState = if s.line.txReady then nextCrcState f else f := by
      simp [State.liveRegs, State.frStateNext, State.payloadEnds, State.overruns, q0, q1, q2, q3, q4, q5, ht, hcur]
    rw [Regs.inTrailer, hnext]
    rcases hfs with rfl | rfl | rfl <;> cases s.line.txReady <;> rfl
  · have hstage : s.liveRegs.txStage = s.cur.txStage := by
      simp [State.liveRegs, State.txStageNext, q0, q1, q2, q4, q5]
    rw [hstage]
    exact hcrc (hcur ▸ n0) (hcur ▸ n1) (hcur ▸ n2)

theorem State.Inv.framer_next_of_crc3 (hf : s.framing .crc3 = true) : s.liveRegs.framerStaged s.par := by
  have hE := fun g => framing_of s _ g hf
  have hcur := ((framing_iff s _).mp hf).2
  have hquiet : s.frameStarts = false ∧ s.headerEnds = false ∧ s.byteTaken = false ∧ s.starves = false ∧
      s.trailing = false := by
    simp [State.frameStarts, State.canStart, State.canOpen, State.headerEnds, State.byteTaken, State.starves,
      State.trailing, hE]
  obtain ⟨q0, q1, q2, q3, q4⟩ := hquiet
  have hlast : (s.aborts || s.completes) = s.line.txReady := by
    simp only [State.aborts, State.completes, hf]
    cases s.cur.txNull <;> simp
  have hfr : s.liveRegs.frState = if s.line.txReady then .idle else .crc3 := by
    simp only [State.liveRegs, State.frStateNext, State.payloadEnds, State.overruns, q0, q1, q2, q3, q4, hlast, hcur]
    rfl
  have hst : s.liveRegs.txStage = if s.line.txReady then [] else s.cur.txStage := by
    simp only [State.liveRegs, State.txStageNext, q0, q1, q2, hlast]
    rfl
  rcases Bool.eq_false_or_eq_true s.line.txReady with hr | hr
  · exact framerStaged_idle (by rw [hfr, hr]; rfl) (by rw [hst, hr]; rfl)
  · have hc : s.completes = false := by simp [State.completes, hr]
    have hlen := h.unacked_length_le hc
    obtain ⟨-, -, -, hcrc, -⟩ := h.framer
    obtain ⟨h1, h2⟩ := h.room_of_framing hf (by decide)
    refine framerStaged_trailer (by rw [Regs.inTrailer, hfr, hr]; rfl) ?_ ⟨by omega, by omega⟩
    rw [hst, hr]
    exact hcrc (by rw [hcur]; decide) (by rw [hcur]; decide) (by rw [hcur]; decide)

/-- R39, R172 to R180 after a tick. -/
theorem State.Inv.framer_next : s.liveRegs.framerStaged s.par := by
  obtain ⟨f, hf⟩ | ⟨hno, hr⟩ := framing_or_replaying s
  · cases f
    case idle => exact h.framer_next_of_idle hf
    case hdr1 => exact h.framer_next_of_hdr1 hf
    case payload => exact h.framer_next_of_payload hf
    case crc3 => exact h.framer_next_of_crc3 hf
    all_goals exact h.framer_next_of_trailing (by simp [State.trailing, hf])
  · obtain ⟨h1, h2, -⟩ := framer_keeps s hno
    have hidle := h.consistent.framerIdle hr
    exact framerStaged_idle (h1.trans hidle) (h2.trans (h.framer.1 hidle))

/-! ### The replay pass, R48 (e), (f), R198 -/

/-- R48 (e) after a tick. -/
theorem State.Inv.framerIdle_next : s.liveRegs.replayingFramerIdle := by
  intro hr
  obtain ⟨f, hf⟩ | ⟨hno, hrc⟩ := framing_or_replaying s
  · obtain ⟨hrc, -⟩ := (framing_iff s f).mp hf
    have hp : s.passStart = true := by
      by_contra hp
      simp [State.liveRegs, State.rcStateNext, hrc, hp, State.passExits, State.replayWaiting] at hr
    have hreq : s.cur.replayReq = true := by
      simp only [State.passStart, Bool.and_eq_true] at hp; exact hp.1.1
    have hidle : s.framing .idle = true := by
      simp only [State.passStart, hrc, Bool.and_eq_true, Bool.or_eq_true] at hp
      simpa using hp.2
    have hE := fun g => framing_of s _ g hidle
    have hcan : s.canStart = false := by simp [State.canStart, State.canOpen, hreq]
    simp [State.liveRegs, State.frStateNext, State.frameStarts, State.headerEnds, State.payloadEnds, State.overruns,
      State.byteTaken, State.starves, State.trailing, State.aborts, State.completes, hcan, hE,
      ((framing_iff s _).mp hidle).2]
  · exact (framer_keeps s hno).1.trans (h.consistent.framerIdle hrc)

end Framer

end Sys2Proof.Machine
end

section
namespace Sys2Proof.Machine

/-- R48 (f), R42, R198: what holds of the pass registers. -/
def Regs.PassOk (p : Params) (r : Regs) : Prop := r.busyInPass ∧ r.passKept p

theorem passOk_idle {p : Params} {r : Regs} (hb : r.rpBusy = false) (hp : r.rpPass = false) : r.PassOk p := by
  simp [Regs.PassOk, Regs.busyInPass, Regs.passKept, hb, hp]

theorem passOk_between {p : Params} {r : Regs} (hb : r.rpBusy = false) (hr : r.rcState = .replaying)
    (hd : (seqDist r.nts r.rpId).toNat ≤ p.nSlots) : r.PassOk p := by
  simp [Regs.PassOk, Regs.busyInPass, Regs.passKept, hb, hr, hd]

theorem passOk_busy {p : Params} {r : Regs} (hp : r.rpPass = true) (hr : r.rcState = .replaying)
    (hd : (seqDist r.nts r.rpId).toNat ≤ p.nSlots) (hpos : r.rpPos < r.rpBytes.length)
    (hlen : r.rpBytes.length ≤ maxFrame p) (hne : r.rpId ≠ r.nts) : r.PassOk p :=
  ⟨fun _ => ⟨hp, hr⟩, fun _ => ⟨hpos, hlen, hne⟩, fun _ => ⟨hr, hd⟩⟩

/-- The cursor's next id is nearer to `nts`. -/
theorem seqDist_seqInc_le (nts id : Seq) (n : Nat) (hne : id ≠ nts) (hd : (seqDist nts id).toNat ≤ n) :
    (seqDist nts (seqInc id)).toNat ≤ n := by
  have hle : (seqDist nts (seqInc id)).toNat + 1 = (seqDist nts id).toNat := by
    simp only [seqDist, seqInc]
    bv_omega
  omega

section Pass
variable {s : State} (h : s.Inv)
include h

/-- R190: a pass starts at most N ids before `nts`. -/
theorem State.Inv.head_near : (seqDist s.cur.nts s.head).toNat ≤ s.par.nSlots := by
  obtain ⟨-, -, -, hcap⟩ := h.consistent.matched
  have hn := h.window.2
  have hu := h.unacked_eq
  rw [State.head]
  generalize s.cur.unacked.length = n at hu hcap hn
  rw [hu]
  rcases Nat.eq_zero_or_pos n with rfl | hpos
  · simp [idsBefore, seqDist]
  · rw [idsBefore_headD _ _ _ hpos]
    have hd : seqDist s.cur.nts (s.cur.nts - BitVec.ofNat 12 n) = BitVec.ofNat 12 n := by
      unfold seqDist; ring
    rw [hd, BitVec.toNat_ofNat]
    exact (Nat.mod_le _ _).trans hcap

theorem State.Inv.pass_next_of_idle (hr : s.cur.rcState = .idle) : s.liveRegs.PassOk s.par := by
  have hb : s.cur.rpBusy = false := by
    by_contra hb
    rw [Bool.not_eq_false] at hb
    exact absurd (h.consistent.busy hb).2 (by simp [hr])
  have hp : s.cur.rpPass = false := by
    by_contra hp
    rw [Bool.not_eq_false] at hp
    exact absurd (h.pass.2 hp).1 (by simp [hr])
  have hw : s.replayWaiting = false := by simp [State.replayWaiting, hr]
  have hres : s.resends = false := by simp [State.resends, hr]
  have hbusy : s.liveRegs.rpBusy = false := by
    simp [State.liveRegs, State.rpBusyKept, State.passSends, State.passBetween, hw, hb]
  rcases Bool.eq_false_or_eq_true s.passStart with hs | hs
  · have hidle : s.framing .idle = true := by
      simp only [State.passStart, hr, Bool.and_eq_true, Bool.or_eq_true] at hs
      simpa using hs.2
    have hc : s.completes = false := by simp [State.completes, framing_of s _ _ hidle]
    refine passOk_between hbusy ?_ ?_
    · simp [State.liveRegs, State.rcStateNext, hr, hs]
    · simpa [State.liveRegs, State.ntsNext, State.rpIdNext, hc, hs] using h.head_near
  · refine passOk_idle hbusy ?_
    simp [State.liveRegs, State.rpPassNext, State.passExits, State.passEnds, State.passBetween, hs, hw, hp]

theorem State.Inv.pass_next_of_busy (hr : s.cur.rcState = .replaying) (hb : s.cur.rpBusy = true) :
    s.liveRegs.PassOk s.par := by
  obtain ⟨hp, -⟩ := h.consistent.busy hb
  obtain ⟨hpos, hlen, hne⟩ := h.pass.1 hb
  obtain ⟨-, hd⟩ := h.pass.2 hp
  have hs : s.passStart = false := by simp [passStart_of_replaying s hr, hb]
  have hw : s.replayWaiting = false := by simp [State.replayWaiting, hb]
  have hres : s.resends = true := by simp [State.resends, hr, hb]
  have hc : s.completes = false := by simp [State.completes, State.framing, hr]
  have hrc : s.liveRegs.rcState = .replaying := by simp [State.liveRegs, State.rcStateNext, State.passExits, hs, hw, hr]
  have hsend : s.passSends = false := by simp [State.passSends, State.passBetween, hw]
  have hskip : s.passSkips = false := by simp [State.passSkips, State.passBetween, hw]
  have hnts : s.liveRegs.nts = s.cur.nts := by simp [State.liveRegs, State.ntsNext, hc]
  rcases Bool.eq_false_or_eq_true s.frameResent with hf | hf
  · refine passOk_between ?_ hrc ?_
    · simp [State.liveRegs, State.rpBusyKept, hsend, hf]
    · rw [hnts]
      simpa [State.liveRegs, State.rpIdNext, hs, hf] using seqDist_seqInc_le _ _ _ hne hd
  · have hid : s.liveRegs.rpId = s.cur.rpId := by simp [State.liveRegs, State.rpIdNext, hs, hf, hskip]
    have hbytes : s.liveRegs.rpBytes = s.cur.rpBytes := by simp [State.liveRegs, State.rpBytesKept, hsend, hf]
    refine passOk_busy ?_ hrc (by rw [hnts, hid]; exact hd) ?_ (by rw [hbytes]; exact hlen) (by rw [hnts, hid]; exact hne)
    · simp [State.liveRegs, State.rpPassNext, State.passExits, State.passEnds, State.passBetween, hs, hw, hp]
    · rw [hbytes]
      rcases Bool.eq_false_or_eq_true s.line.txReady with ht | ht
      · have hlast : s.lastBeat = false := by simpa [State.frameResent, hres, ht] using hf
        simp only [State.lastBeat, beq_eq_false_iff_ne] at hlast
        simp [State.liveRegs, State.rpPosKept, hsend, hf, State.byteResent, hres, ht]
        omega
      · simpa [State.liveRegs, State.rpPosKept, hsend, hf, State.byteResent, ht] using hpos

theorem State.Inv.cursorFrame_bounds (hf : (find s.cur.slots s.cur.rpId).isSome = true) :
    6 ≤ s.cursorFrame.length ∧ s.cursorFrame.length ≤ maxFrame s.par := by
  obtain ⟨k, hk⟩ := Option.isSome_iff_exists.mp hf
  obtain ⟨sl, hs, ho, -⟩ := find_some _ _ _ hk
  have hbytes := h.frames.2 sl (List.mem_of_getElem? hs) ho
  simpa [State.cursorFrame, hk, hs] using hbytes

theorem State.Inv.pass_next_of_waiting (hr : s.cur.rcState = .replaying) (hb : s.cur.rpBusy = false) :
    s.liveRegs.PassOk s.par := by
  have hw : s.replayWaiting = true := by simp [State.replayWaiting, hr, hb]
  have hc : s.completes = false := by simp [State.completes, State.framing, hr]
  have hnts : s.liveRegs.nts = s.cur.nts := by simp [State.liveRegs, State.ntsNext, hc]
  have hs := passStart_of_replaying s hr
  have hres : s.frameResent = false := by simp [State.frameResent, State.resends, hb]
  rcases Nat.eq_zero_or_pos s.rbCount with he | he
  case inl =>
    have hs' : s.passStart = false := by simp [hs, he]
    refine passOk_idle ?_ ?_
    · simp [State.liveRegs, State.rpBusyKept, State.passSends, State.passBetween, he, hb]
    · simp [State.liveRegs, State.rpPassNext, State.passExits, hs', hw, State.rbEmpty, he]
  case inr =>
    have hx : s.passExits = false := by simp [State.passExits, State.rbEmpty, he.ne']
    have hrc : s.liveRegs.rcState = .replaying := by simp [State.liveRegs, State.rcStateNext, hx, hr]
    rcases Bool.eq_false_or_eq_true s.cur.rpPass with hp | hp
    case inr =>
      have hbt : s.passBetween = false := by simp [State.passBetween, hp]
      have hbusy : s.liveRegs.rpBusy = false := by simp [State.liveRegs, State.rpBusyKept, State.passSends, hbt, hb]
      rcases Bool.eq_false_or_eq_true s.passStart with hst | hst
      · refine passOk_between hbusy hrc ?_
        rw [hnts]
        simpa [State.liveRegs, State.rpIdNext, hst] using h.head_near
      · refine passOk_idle hbusy ?_
        simp [State.liveRegs, State.rpPassNext, State.passEnds, hbt, hx, hst, hp]
    case inl =>
      have hs' : s.passStart = false := by simp [hs, hp]
      have hbt : s.passBetween = true := by simp [State.passBetween, hw, hp, he]
      obtain ⟨-, hd⟩ := h.pass.2 hp
      by_cases hid : s.cur.rpId = s.cur.nts
      · refine passOk_idle ?_ ?_
        · simp [State.liveRegs, State.rpBusyKept, State.passSends, hid, hb]
        · simp [State.liveRegs, State.rpPassNext, State.passEnds, hs', hbt, hid]
      · cases hf : find s.cur.slots s.cur.rpId with
        | some k =>
          have hsend : s.passSends = true := by simp [State.passSends, hbt, hid, hf]
          have hskip : s.passSkips = false := by simp [State.passSkips, hf]
          have hends : s.passEnds = false := by simp [State.passEnds, hid]
          obtain ⟨hlo, hhi⟩ := h.cursorFrame_bounds (by rw [hf]; rfl)
          have hid' : s.liveRegs.rpId = s.cur.rpId := by simp [State.liveRegs, State.rpIdNext, hs', hres, hskip]
          refine passOk_busy ?_ hrc (by rw [hnts, hid']; exact hd) ?_ ?_ (by rw [hnts, hid']; exact hid)
          · simp [State.liveRegs, State.rpPassNext, hs', hx, hends, hp]
          · simp only [State.liveRegs, hsend, if_true]; omega
          · simpa only [State.liveRegs, hsend, if_true] using hhi
        | none =>
          have hskip : s.passSkips = true := by simp [State.passSkips, hbt, hid, hf]
          refine passOk_between ?_ hrc ?_
          · simp [State.liveRegs, State.rpBusyKept, State.passSends, hf, hb]
          · rw [hnts]
            simpa [State.liveRegs, State.rpIdNext, hs', hskip] using seqDist_seqInc_le _ _ _ hid hd

theorem State.Inv.pass_next : s.liveRegs.PassOk s.par := by
  cases hr : s.cur.rcState
  case idle => exact h.pass_next_of_idle hr
  case replaying =>
    rcases Bool.eq_false_or_eq_true s.cur.rpBusy with hb | hb
    · exact h.pass_next_of_busy hr hb
    · exact h.pass_next_of_waiting hr hb

end Pass

end Sys2Proof.Machine
end

section
namespace Sys2Proof.Machine

/-! ### The receive engine, R48 (d), R40, R41 -/

/-- R48 (d), R40, R41: what holds of the receive engine's stores. -/
def Regs.ReceiverOk (p : Params) (r : Regs) : Prop := r.queueHasRoom p ∧ r.receiverStaged p

theorem queueAfterPop_length_le (s : State) : s.queueAfterPop.length ≤ s.cur.rxq.length := by
  unfold State.queueAfterPop
  split <;> simp

theorem mem_queueAfterPop (s : State) (e : RxEntry) (he : e ∈ s.queueAfterPop) : e ∈ s.cur.rxq := by
  unfold State.queueAfterPop at he
  split at he
  · exact List.mem_of_mem_tail he
  · exact he

theorem validates_of_ne (s : State) (hx : s.cur.rxState ≠ .validating) (c : VClass) : s.validates c = false := by
  simp [State.validates, hx]

/-- Outside validation the queue only loses its head. -/
theorem rxq_next_of_ne (s : State) (hx : s.cur.rxState ≠ .validating) : s.liveRegs.rxq = s.queueAfterPop := by
  simp [State.liveRegs, State.rxqPushed, validates_of_ne s hx]

/-- Outside a frame and outside validation the staging keeps its value. -/
theorem rxStage_next_of_quiet (s : State) (ho : s.frameOpens = false) (hb : s.byteCaptured = false)
    (hx : s.cur.rxState ≠ .validating) :
    s.liveRegs.rxStage = s.cur.rxStage ∧ s.liveRegs.rxTrunc = s.cur.rxTrunc ∧
      s.liveRegs.rxOversize = s.cur.rxOversize := by
  simp [State.liveRegs, State.rxStageNext, State.rxTruncNext, State.rxOversizeNext, State.frameCloses, ho, hb, hx]

/-- R41, R66: a payload is a frame without its header and trailer. -/
theorem rxPayload_length_le (p : Params) (f : List Byte) (hf : f.length ≤ maxFrame p) :
    (rxPayload f).length ≤ p.maxPayload := by
  simp only [rxPayload, List.length_drop, List.length_take, maxFrame] at *
  omega

section Receiver
variable {s : State} (h : s.Inv)
include h

theorem State.Inv.popped_entries : ∀ e ∈ s.queueAfterPop, e.payload.length ≤ s.par.maxPayload := fun e he =>
  h.receiver.2.2.2 e (mem_queueAfterPop s e he)

/-- While a frame comes in, the queue has room and the staging is within its bound. -/
theorem State.Inv.receiver_next_of_open (hx : s.cur.rxState ≠ .validating) (hw : s.cur.rxState ≠ .waitspace)
    (hn : s.liveRegs.rxState = .receiving ∨ s.liveRegs.rxState = .validating)
    (hs : s.liveRegs.rxStage.length ≤ maxFrame s.par) : s.liveRegs.ReceiverOk s.par := by
  have hroom := h.consistent.room hw
  have hpop := queueAfterPop_length_le s
  have hq := rxq_next_of_ne s hx
  refine ⟨fun _ => by rw [hq]; omega, hs, fun hi => ?_, by rw [hq]; omega, by rw [hq]; exact h.popped_entries⟩
  rcases hn with hn | hn <;> simp [hn] at hi

/-- Between frames nothing is staged. -/
theorem State.Inv.receiver_next_of_quiet (ho : s.frameOpens = false) (hb : s.byteCaptured = false)
    (hx : s.cur.rxState = .idle ∨ s.cur.rxState = .waitspace)
    (hroom : s.liveRegs.rxState ≠ .waitspace → s.cur.rxq.length < s.par.rxCap) : s.liveRegs.ReceiverOk s.par := by
  have hne : s.cur.rxState ≠ .validating := by rcases hx with hx | hx <;> simp [hx]
  obtain ⟨h1, h2, h3⟩ := rxStage_next_of_quiet s ho hb hne
  obtain ⟨hlen, hclear, hcap, -⟩ := h.receiver
  have hq := rxq_next_of_ne s hne
  have hpop := queueAfterPop_length_le s
  refine ⟨fun hn => ?_, by rw [h1]; exact hlen, fun _ => by rw [h1, h2, h3]; exact hclear hx, by rw [hq]; omega,
    by rw [hq]; exact h.popped_entries⟩
  rw [hq]
  exact lt_of_le_of_lt hpop (hroom hn)

theorem State.Inv.receiver_next_of_idle (hx : s.cur.rxState = .idle) : s.liveRegs.ReceiverOk s.par := by
  have hb : s.byteCaptured = false := by simp [State.byteCaptured, hx]
  rcases Bool.eq_false_or_eq_true s.frameOpens with ho | ho
  · refine h.receiver_next_of_open (by simp [hx]) (by simp [hx]) ?_ ?_
    · rcases Bool.eq_false_or_eq_true s.frameCloses with hc | hc
      · exact .inr (by simp [State.liveRegs, State.rxStateNext, hc])
      · exact .inl (by simp [State.liveRegs, State.rxStateNext, hc, ho])
    · simp [State.liveRegs, State.rxStageNext, ho, maxFrame]
  · exact h.receiver_next_of_quiet ho hb (.inl hx) fun _ => h.consistent.room (by simp [hx])

theorem State.Inv.receiver_next_of_waitspace (hx : s.cur.rxState = .waitspace) : s.liveRegs.ReceiverOk s.par := by
  have ho : s.frameOpens = false := by simp [State.frameOpens, hx]
  have hb : s.byteCaptured = false := by simp [State.byteCaptured, hx]
  refine h.receiver_next_of_quiet ho hb (.inr hx) fun hn => ?_
  by_contra hfull
  refine hn ?_
  simp [State.liveRegs, State.rxStateNext, State.frameCloses, State.spaceFound, State.rxqCount, ho, hb, hx, hfull]

theorem State.Inv.receiver_next_of_receiving (hx : s.cur.rxState = .receiving) : s.liveRegs.ReceiverOk s.par := by
  have ho : s.frameOpens = false := by simp [State.frameOpens, hx]
  refine h.receiver_next_of_open (by simp [hx]) (by simp [hx]) ?_ ?_
  · rcases Bool.eq_false_or_eq_true s.frameCloses with hc | hc
    · exact .inr (by simp [State.liveRegs, State.rxStateNext, hc])
    · exact .inl (by simp [State.liveRegs, State.rxStateNext, State.spaceFound, hc, ho, hx])
  · have hlen := h.receiver.1
    simp only [State.liveRegs, State.rxStageNext, ho, hx]
    by_cases hcap : s.cur.rxStage.length < maxFrame s.par <;> cases s.byteCaptured <;> simp [hcap] <;> omega

theorem State.Inv.receiver_next_of_validating (hx : s.cur.rxState = .validating) : s.liveRegs.ReceiverOk s.par := by
  have ho : s.frameOpens = false := by simp [State.frameOpens, hx]
  have hb : s.byteCaptured = false := by simp [State.byteCaptured, hx]
  have hroom := h.consistent.room (by simp [hx])
  have hpop := queueAfterPop_length_le s
  have hstaged : s.liveRegs.rxStage = [] ∧ s.liveRegs.rxTrunc = false ∧ s.liveRegs.rxOversize = false := by
    simp [State.liveRegs, State.rxStageNext, State.rxTruncNext, State.rxOversizeNext, State.frameCloses, ho, hb, hx]
  have hstate : s.liveRegs.rxState = if s.ackDeferred then .waitspace else .idle := by
    simp [State.liveRegs, State.rxStateNext, State.frameCloses, ho, hb, hx]
  have hq : s.liveRegs.rxq = s.rxqPushed s.queueAfterPop := rfl
  refine ⟨fun hn => ?_, by simp [hstaged.1], fun _ => hstaged, ?_, fun e he => ?_⟩
  · rw [hq, State.rxqPushed]
    rcases Bool.eq_false_or_eq_true (s.validates .accept) with ha | ha
    · have hd : s.queueAfterPop.length + 1 ≠ s.par.rxCap := by
        intro hd
        simp [hstate, State.ackDeferred, ha, hd] at hn
      simp [ha]; omega
    · simp [ha]; omega
  · rw [hq, State.rxqPushed]
    split
    · simp; omega
    · omega
  · rw [hq, State.rxqPushed] at he
    split at he
    · rcases List.mem_append.mp he with he | he
      · exact h.popped_entries e he
      · rw [List.mem_singleton.mp he]
        exact rxPayload_length_le _ _ h.receiver.1
    · exact h.popped_entries e he

theorem State.Inv.receiver_next : s.liveRegs.ReceiverOk s.par := by
  cases hx : s.cur.rxState
  case idle => exact h.receiver_next_of_idle hx
  case receiving => exact h.receiver_next_of_receiving hx
  case validating => exact h.receiver_next_of_validating hx
  case waitspace => exact h.receiver_next_of_waitspace hx

/-! ### The timers, and all together -/

/-- R24, R26, R298 after a tick. -/
theorem State.Inv.timers_next : s.liveRegs.timersInRange s.par := by
  obtain ⟨-, -, -, hr, ha⟩ := (wf_iff _).mp h.build
  constructor
  · change s.beforeExpiry.replayTimerNext < s.beforeExpiry.par.replayLimit
    unfold State.replayTimerNext
    split
    · exact hr
    · rename_i hn
      simp only [State.replayExpires, Bool.or_eq_true, not_or, Bool.not_eq_true] at hn
      obtain ⟨⟨hheld, hempty⟩, hexp⟩ := hn
      simpa [hheld, hempty] using hexp
  · change s.beforeExpiry.ackTimerNext < s.beforeExpiry.par.ackLimit
    unfold State.ackTimerNext
    split
    · exact ha
    · rename_i hn
      simp only [State.ackExpires, Bool.or_eq_true, not_or, Bool.not_eq_true] at hn
      obtain ⟨⟨hsched, hspace⟩, hexp⟩ := hn
      simpa [hsched, hspace, bne] using hexp

/-- R48 after a tick with the link up. -/
theorem State.Inv.consistent_next : s.liveRegs.Consistent s.par := by
  obtain ⟨m, hu, -, hcap, hm⟩ := h.window_next
  have hlen : s.liveRegs.unacked.length = m := by rw [hu, idsBefore_length]
  have hnd : s.liveRegs.unacked.Nodup := by rw [hu]; exact idsBefore_nodup _ _ hm
  have hheld : ∀ i, Held s.liveRegs.slots i ↔ i ∈ s.liveRegs.unacked := h.held_next
  exact
    { consecutive := by
        rw [Regs.unackedConsecutive, hlen]
        exact hu
      matched :=
        ⟨fun sl hm ho => (hheld sl.id).mp ⟨sl, hm, ho, rfl⟩, fun i hi => (find_isSome_iff _ _).mpr ((hheld i).mpr hi),
          occCount_eq_length _ h.distinct_next _ hnd hheld, by omega⟩
      distinct := h.distinct_next
      room := h.receiver_next.1
      framerIdle := h.framerIdle_next
      busy := h.pass_next.1 }

end Receiver

theorem step_inv {s t : State} (h : s.Inv) (ht : step s = .next t) : t.Inv := by
  rcases Bool.eq_false_or_eq_true s.line.live with hl | hl
  case inr =>
    obtain ⟨hp, hc, -⟩ := step_next_of_down hl ht
    exact inv_of_reset t (by rw [hp]; exact h.build) (by rw [hp]; exact hc)
  case inl =>
    obtain ⟨hp, hc, -⟩ := step_next_of_live hl ht
    obtain ⟨m, hu, hla, -, hm⟩ := h.window_next
    have hlen : s.liveRegs.unacked.length = m := by rw [hu, idsBefore_length]
    exact
      { build := by rw [hp]; exact h.build
        consistent := by rw [hp, hc]; exact h.consistent_next
        frames := by rw [hp, hc]; exact h.frames_next
        window := by rw [hc]; exact ⟨by rw [hlen]; exact hla, by omega⟩
        framer := by rw [hp, hc]; exact h.framer_next
        pass := by rw [hp, hc]; exact h.pass_next.2
        receiver := by rw [hp, hc]; exact h.receiver_next.2
        timers := by rw [hp, hc]; exact h.timers_next }

/-- Settles O56: the registers of a tick, group by group. -/
theorem invKeptByStep : Obligations.InvKeptByStep := fun _ _ h ht => step_inv h ht

/-! ### Runs -/

/-- What holds of a state and is kept by every step holds after any number of ticks. -/
theorem ticks_induction (P : State → Prop) (hstep : ∀ s t, P s → step s = .next t → P t) (n : Nat) {s t : State} (hs : P s)
    (ht : ticks n s = .next t) : P t := by
  induction n generalizing s with
  | zero =>
    obtain rfl : s = t := by simpa [ticks] using ht
    exact hs
  | succ n ih =>
    obtain ⟨u, hu, hut⟩ := andThen_eq_next _ _ _ ht
    exact ih (hstep s u hs hu) hut

/-- Settles O57, by induction on the number of ticks. -/
theorem invariantsHoldAlways : Obligations.InvariantsHoldAlways := by
  intro n p lines t hw ht
  obtain ⟨hinv, rfl⟩ := ticks_induction (fun s => s.Inv ∧ s.par = p)
    (fun s u hs hu => ⟨step_inv hs.1 hu, (step_next_par hu).trans hs.2⟩) n ⟨invAtReset p lines hw, rfl⟩ ht
  exact hinv.consistent

end Sys2Proof.Machine
end

section
namespace Sys2Proof.Machine

/-! ## Unspecified values, R50 -/

/-! ### The slots as they are seen -/

@[simp] theorem Slot.seen_occ (sl : Slot) : sl.seen.occ = sl.occ := by
  unfold Slot.seen
  cases h : sl.occ <;> simp [h, Slot.free]

theorem Slot.seen_of_occ (sl : Slot) (h : sl.occ = true) : sl.seen = sl := by simp [Slot.seen, h]

theorem occCount_map_seen (slots : List Slot) : occCount (slots.map Slot.seen) = occCount slots := by
  rw [occCount, List.countP_map]
  exact List.countP_congr fun sl _ => by simp

theorem find_map_seen (slots : List Slot) (i : Seq) : find (slots.map Slot.seen) i = find slots i := by
  have hp : ((fun sl : Slot => sl.occ && sl.id == i) ∘ Slot.seen) = fun sl => sl.occ && sl.id == i := by
    funext sl
    cases h : sl.occ
    · simp [h]
    · simp only [Function.comp_apply, Slot.seen_of_occ sl h, h]
  rw [find, List.findIdx?_map, hp, find]

theorem firstFree_map_seen (slots : List Slot) : firstFree (slots.map Slot.seen) = firstFree slots := by
  have hp : ((fun sl : Slot => !sl.occ) ∘ Slot.seen) = fun sl => !sl.occ := by
    funext sl
    simp
  rw [firstFree, List.findIdx?_map, hp, firstFree]

theorem distinct_map_seen (slots : List Slot) (hd : DistinctIds slots) : DistinctIds (slots.map Slot.seen) := by
  rw [DistinctIds, List.pairwise_map]
  refine hd.imp fun {a b} h hab => h ?_
  obtain ⟨ha, hb, hi⟩ := hab
  rw [Slot.seen_occ] at ha hb
  rw [Slot.seen_of_occ a ha, Slot.seen_of_occ b hb] at hi
  exact ⟨ha, hb, hi⟩

/-- A delete looks at nothing that is not seen. -/
theorem Slot.seen_freed_seen (ids : List Seq) (sl : Slot) : (sl.seen.freed ids).seen = (sl.freed ids).seen := by
  cases h : sl.occ
  · simp [Slot.seen, Slot.freed, h, Slot.free]
  · rw [Slot.seen_of_occ sl h]

/-! ### A state with the unspecified values blanked out -/

/-- The state with every unspecified value of its registers blanked out, in the same tick. -/
def State.visible (s : State) : State := { State.resetWith s.par [s.line] with cur := s.cur.seen }

theorem visible_line (s : State) : s.visible.line = s.line := rfl
theorem visible_par (s : State) : s.visible.par = s.par := rfl

@[simp] theorem visible_rbCount (s : State) : s.visible.rbCount = s.rbCount := occCount_map_seen s.cur.slots

@[simp] theorem visible_find (s : State) (i : Seq) : find s.visible.cur.slots i = find s.cur.slots i :=
  find_map_seen s.cur.slots i

@[simp] theorem visible_rbEmpty (s : State) : s.visible.rbEmpty = s.rbEmpty := by simp [State.rbEmpty]
@[simp] theorem visible_rbFull (s : State) : s.visible.rbFull = s.rbFull := by
  simp only [State.rbFull, visible_rbCount, visible_par]

@[simp] theorem visible_framing (s : State) (f : FrState) : s.visible.framing f = s.framing f := rfl

@[simp] theorem visible_passStart (s : State) : s.visible.passStart = s.passStart := by
  simp only [State.passStart, visible_rbCount, visible_framing]; rfl

@[simp] theorem visible_reqDrop (s : State) : s.visible.reqDrop = s.reqDrop := by
  simp only [State.reqDrop, visible_rbCount, visible_framing]; rfl

@[simp] theorem visible_canStart (s : State) : s.visible.canStart = s.canStart := by
  simp only [State.canStart, State.canOpen, visible_rbCount, visible_framing]; rfl

@[simp] theorem visible_passBetween (s : State) : s.visible.passBetween = s.passBetween := by
  simp only [State.passBetween, visible_rbCount]; rfl

/-- The cursor is seen while a pass is live. -/
theorem visible_rpId (s : State) (h : s.cur.rpPass = true) : s.visible.cur.rpId = s.cur.rpId := if_pos h

theorem rpPass_of_passBetween (s : State) (h : s.passBetween = true) : s.cur.rpPass = true := by
  simp only [State.passBetween, Bool.and_eq_true] at h
  exact h.1.2

@[simp] theorem visible_passExits (s : State) : s.visible.passExits = s.passExits := by
  simp only [State.passExits, visible_rbEmpty]; rfl

@[simp] theorem visible_passEnds (s : State) : s.visible.passEnds = s.passEnds := by
  simp only [State.passEnds, visible_passBetween]
  rcases Bool.eq_false_or_eq_true s.passBetween with h | h
  · rw [visible_rpId s (rpPass_of_passBetween s h)]; rfl
  · simp [h]

@[simp] theorem visible_passSends (s : State) : s.visible.passSends = s.passSends := by
  simp only [State.passSends, visible_passBetween, visible_find]
  rcases Bool.eq_false_or_eq_true s.passBetween with h | h
  · rw [visible_rpId s (rpPass_of_passBetween s h)]; rfl
  · simp [h]

@[simp] theorem visible_passSkips (s : State) : s.visible.passSkips = s.passSkips := by
  simp only [State.passSkips, visible_passBetween, visible_find]
  rcases Bool.eq_false_or_eq_true s.passBetween with h | h
  · rw [visible_rpId s (rpPass_of_passBetween s h)]; rfl
  · simp [h]

/-- The copy and the position in it are seen while a frame is being re-sent. -/
theorem visible_copy (s : State) (h : s.cur.rpBusy = true) :
    s.visible.cur.rpBytes = s.cur.rpBytes ∧ s.visible.cur.rpPos = s.cur.rpPos := ⟨if_pos h, if_pos h⟩

theorem rpBusy_of_resends (s : State) (h : s.resends = true) : s.cur.rpBusy = true := by
  simp only [State.resends, Bool.and_eq_true] at h
  exact h.2

@[simp] theorem visible_resends (s : State) : s.visible.resends = s.resends := rfl

theorem visible_lastBeat (s : State) (h : s.resends = true) : s.visible.lastBeat = s.lastBeat := by
  obtain ⟨h1, h2⟩ := visible_copy s (rpBusy_of_resends s h)
  simp only [State.lastBeat, h1, h2]

@[simp] theorem visible_frameResent (s : State) : s.visible.frameResent = s.frameResent := by
  simp only [State.frameResent, visible_resends, visible_line]
  rcases Bool.eq_false_or_eq_true s.resends with h | h
  · rw [visible_lastBeat s h]
  · simp [h]

/-- The trailer is seen in the trailer states. -/
theorem visible_txCrc (s : State) (h : s.cur.inTrailer = true) : s.visible.cur.txCrc = s.cur.txCrc := if_pos h

theorem inTrailer_of_framing (s : State) {f : FrState} (h : s.framing f = true)
    (hf : f = .crc0 ∨ f = .crc1 ∨ f = .crc2 ∨ f = .crc3) : s.cur.inTrailer = true := by
  rw [Regs.inTrailer, ((framing_iff s f).mp h).2]
  rcases hf with rfl | rfl | rfl | rfl <;> rfl

/-! ### The outputs -/

theorem visible_statusDrives (s : State) (o : PortOut) : s.visible.statusDrives o = s.statusDrives o := by
  simp only [State.statusDrives, visible_rbCount, visible_rbFull, visible_rbEmpty]; rfl

theorem visible_messageDrives (s : State) (o : PortOut) : s.visible.messageDrives o = s.messageDrives o := by
  rcases Bool.eq_false_or_eq_true s.cur.ctlPending with h | h
  · have h1 : s.visible.cur.ctlPositive = s.cur.ctlPositive := if_pos h
    have h2 : s.visible.cur.ctlId = s.cur.ctlId := if_pos h
    simp only [State.messageDrives, h1, h2]; rfl
  · have h' : s.visible.cur.ctlPending = false := h
    simp only [State.messageDrives, h, h', Bool.false_eq_true, if_false]

theorem visible_replayDrives (s : State) (o : PortOut) : s.visible.replayDrives o = s.replayDrives o := by
  simp only [State.replayDrives, visible_resends]
  rcases Bool.eq_false_or_eq_true s.resends with h | h
  · obtain ⟨h1, h2⟩ := visible_copy s (rpBusy_of_resends s h)
    simp only [State.replayByte, visible_lastBeat s h, h1, h2]
  · simp only [h, Bool.false_eq_true, if_false]

theorem trailing_cases (s : State) (h : s.trailing = true) : s.cur.inTrailer = true := by
  simp only [State.trailing, Bool.or_eq_true] at h
  obtain (h0 | h1) | h2 := h
  · exact inTrailer_of_framing s h0 (.inl rfl)
  · exact inTrailer_of_framing s h1 (.inr (.inl rfl))
  · exact inTrailer_of_framing s h2 (.inr (.inr (.inl rfl)))

theorem visible_framerDrives (s : State) (o : PortOut) : s.visible.framerDrives o = s.framerDrives o := by
  have hbyte : s.cur.inTrailer = true → s.visible.trailerByte = s.trailerByte := fun h => by
    simp only [State.trailerByte, visible_txCrc s h]; rfl
  have htr : s.visible.trailing = s.trailing := rfl
  have hst : s.visible.starves = s.starves := rfl
  simp only [State.framerDrives, visible_canStart, visible_framing, htr, hst]
  rcases Bool.eq_false_or_eq_true s.trailing with h | h
  · rw [hbyte (trailing_cases s h)]; rfl
  · rcases Bool.eq_false_or_eq_true (s.framing .crc3) with h3 | h3
    · rw [hbyte (inTrailer_of_framing s h3 (.inr (.inr (.inr rfl))))]; rfl
    · simp only [h, h3, Bool.false_eq_true, if_false]; rfl

theorem visible_liveOut (s : State) : s.visible.liveOut = s.liveOut := by
  have hb : s.visible.baseOut = s.baseOut := rfl
  simp only [State.liveOut, visible_framerDrives, visible_replayDrives, visible_messageDrives, visible_statusDrives, hb]

/-! ### The registers -/

/-- The registers that R50 gives a value in every state, the others blanked out. -/
def Regs.specified (r : Regs) : Regs :=
  { r with slots := [], txCrc := 0, ctlPositive := false, ctlId := 0, rpId := 0, rpBytes := [], rpPos := 0 }

theorem visible_replayTimerHeld (s : State) :
    s.visible.beforeExpiry.replayTimerHeld = s.beforeExpiry.replayTimerHeld := by
  have hps : s.visible.beforeExpiry.passStart = s.beforeExpiry.passStart := visible_passStart s
  simp only [State.replayTimerHeld, hps]; rfl

theorem visible_replayExpires (s : State) : s.visible.beforeExpiry.replayExpires = s.beforeExpiry.replayExpires := by
  simp only [State.replayExpires, visible_replayTimerHeld]; rfl

theorem visible_replayTimerNext (s : State) :
    s.visible.beforeExpiry.replayTimerNext = s.beforeExpiry.replayTimerNext := by
  simp only [State.replayTimerNext, visible_replayTimerHeld, visible_replayExpires]; rfl

theorem visible_naks (s : State) : s.visible.naks = s.naks := by
  simp only [State.naks, visible_passStart]; rfl

theorem visible_frameStarts (s : State) : s.visible.frameStarts = s.frameStarts := by
  simp only [State.frameStarts, visible_canStart]; rfl

theorem visible_specified (s : State) : s.visible.liveRegs.specified = s.liveRegs.specified := by
  simp only [Regs.specified, State.liveRegs, State.replayCountNext, State.rcStateNext, State.rpPassNext,
    State.rpBusyKept,
    State.replayReqKept, State.frStateNext, State.txStageNext, State.txNullNext, visible_naks, visible_frameStarts,
    visible_replayExpires, visible_replayTimerNext, visible_passStart, visible_reqDrop, visible_passExits,
    visible_passEnds, visible_passSends, visible_frameResent]
  congr 1

/-- What a register file shows is made of the specified registers and of each of the others where it is specified. -/
theorem seen_congr {a b : Regs} (h : a.specified = b.specified) (hslots : a.slots.map Slot.seen = b.slots.map Slot.seen)
    (hcrc : a.inTrailer = true → a.txCrc = b.txCrc)
    (hctl : a.ctlPending = true → a.ctlPositive = b.ctlPositive ∧ a.ctlId = b.ctlId)
    (hid : a.rpPass = true → a.rpId = b.rpId)
    (hcopy : a.rpBusy = true → a.rpBytes = b.rpBytes ∧ a.rpPos = b.rpPos) : a.seen = b.seen := by
  have hseen : ∀ r : Regs, r.seen =
      { r.specified with
          slots := r.slots.map Slot.seen
          txCrc := if r.inTrailer then r.txCrc else 0
          ctlPositive := if r.ctlPending then r.ctlPositive else false
          ctlId := if r.ctlPending then r.ctlId else 0
          rpId := if r.rpPass then r.rpId else 0
          rpBytes := if r.rpBusy then r.rpBytes else []
          rpPos := if r.rpBusy then r.rpPos else 0 } := fun _ => rfl
  have h1 : a.inTrailer = b.inTrailer := show a.specified.inTrailer = b.specified.inTrailer by rw [h]
  have h2 : a.ctlPending = b.ctlPending := show a.specified.ctlPending = b.specified.ctlPending by rw [h]
  have h3 : a.rpPass = b.rpPass := show a.specified.rpPass = b.specified.rpPass by rw [h]
  have h4 : a.rpBusy = b.rpBusy := show a.specified.rpBusy = b.specified.rpBusy by rw [h]
  rw [h1] at hcrc
  rw [h2] at hctl
  rw [h3] at hid
  rw [h4] at hcopy
  rw [hseen a, hseen b, h, hslots, h1, h2, h3, h4, ite_congr rfl hcrc fun _ => rfl,
    ite_congr rfl (fun hc => (hctl hc).1) fun _ => rfl, ite_congr rfl (fun hc => (hctl hc).2) fun _ => rfl,
    ite_congr rfl hid fun _ => rfl, ite_congr rfl (fun hb => (hcopy hb).1) fun _ => rfl,
    ite_congr rfl (fun hb => (hcopy hb).2) fun _ => rfl]

section Unseen
variable {s : State}

theorem visible_slotsNext (h : s.Inv) : s.visible.slotsNext.map Slot.seen = s.slotsNext.map Slot.seen := by
  have hids : s.visible.ackedIds ++ s.visible.abortedIds = s.ackedIds ++ s.abortedIds := rfl
  have hcomp : s.visible.completes = s.completes := rfl
  have hfree : (freeSlots s.visible.cur.slots (s.ackedIds ++ s.abortedIds)).map Slot.seen =
      (freeSlots s.cur.slots (s.ackedIds ++ s.abortedIds)).map Slot.seen := by
    have hv : s.visible.cur.slots = s.cur.slots.map Slot.seen := rfl
    rw [hv, freeSlots_eq_map _ (distinct_map_seen _ h.consistent.distinct), h.freeSlots_eq, List.map_map, List.map_map,
      List.map_map]
    exact List.map_congr_left fun sl _ => Slot.seen_freed_seen _ sl
  have hff : firstFree s.visible.cur.slots = firstFree s.cur.slots := firstFree_map_seen s.cur.slots
  have hnts : s.visible.cur.nts = s.cur.nts := rfl
  have htaken : s.visible.slotTaken = s.slotTaken := by
    simp only [State.slotTaken, visible_find, visible_rbFull, hff, hcomp, hnts]
  simp only [State.slotsNext, htaken, hids]
  cases ht : s.slotTaken with
  | none => exact hfree
  | some k =>
    have hc : s.completes = true := by
      by_contra hc
      simp [State.slotTaken, hc] at ht
    have hslot : s.visible.completedSlot = s.completedSlot := by
      have htr := inTrailer_of_framing s (framing_of_completes s hc) (.inr (.inr (.inr rfl)))
      simp only [State.completedSlot, visible_txCrc s htr]; rfl
    simp only [List.map_set, hfree, hslot]

theorem visible_txCrc_next (ht : s.liveRegs.inTrailer = true) : s.visible.liveRegs.txCrc = s.liveRegs.txCrc := by
  have hp : s.visible.payloadEnds = s.payloadEnds := rfl
  have ho : s.visible.overruns = s.overruns := rfl
  have hs : s.visible.starves = s.starves := rfl
  simp only [State.liveRegs, State.txCrcNext, hp, ho, hs]
  by_cases hnew : (s.payloadEnds || s.overruns || s.starves) = true
  · simp only [Bool.or_eq_true] at hnew
    obtain (h | h) | h := hnew <;> simp only [h, if_true] <;> rfl
  · simp only [Bool.or_eq_true, not_or, Bool.not_eq_true] at hnew
    obtain ⟨⟨h1, h2⟩, h3⟩ := hnew
    simp only [h1, h2, h3, Bool.false_eq_true, if_false]
    refine visible_txCrc s ?_
    by_contra hno
    have htr : s.trailing = false := by
      by_contra h
      exact hno (trailing_cases s (by simpa using h))
    have hnext : s.liveRegs.frState =
        if s.frameStarts then .hdr1
        else if s.headerEnds then .payload
        else if s.aborts || s.completes then .idle
        else s.cur.frState := by
      simp [State.liveRegs, State.frStateNext, h1, h2, h3, htr]
    rw [Regs.inTrailer, hnext] at ht
    split_ifs at ht
    case neg => exact hno ht
    all_goals exact absurd ht (by decide)

theorem visible_message_next (hc : s.liveRegs.ctlPending = true) :
    s.visible.liveRegs.ctlPositive = s.liveRegs.ctlPositive ∧ s.visible.liveRegs.ctlId = s.liveRegs.ctlId := by
  have hk : s.visible.beforeExpiry.keepaliveSends = s.beforeExpiry.keepaliveSends := rfl
  have hs : s.visible.scheduledNow = s.scheduledNow := rfl
  simp only [State.liveRegs, hk, hs] at hc ⊢
  rcases Bool.eq_false_or_eq_true s.beforeExpiry.keepaliveSends with h | h
  · simp only [h, if_true]; exact ⟨trivial, rfl⟩
  · simp only [h, Bool.false_eq_true, if_false] at hc ⊢
    cases hn : s.scheduledNow with
    | some m => exact ⟨rfl, rfl⟩
    | none =>
      have hp : s.cur.ctlPending = true := by
        by_contra hp
        simp [hn, State.ctlPendingKept, hp] at hc
      exact ⟨if_pos hp, if_pos hp⟩

theorem visible_rpId_next (hp : s.liveRegs.rpPass = true) : s.visible.liveRegs.rpId = s.liveRegs.rpId := by
  have hhead : s.visible.head = s.head := rfl
  simp only [State.liveRegs, State.rpIdNext, visible_passStart, visible_frameResent, visible_passSkips, hhead]
  rcases Bool.eq_false_or_eq_true s.passStart with hs | hs
  · simp only [hs, if_true]
  · have hpass : s.cur.rpPass = true := by
      by_contra hn
      simp [State.liveRegs, State.rpPassNext, hs, hn] at hp
    simp only [visible_rpId s hpass]

theorem visible_copy_next (hb : s.liveRegs.rpBusy = true) :
    s.visible.liveRegs.rpBytes = s.liveRegs.rpBytes ∧ s.visible.liveRegs.rpPos = s.liveRegs.rpPos := by
  simp only [State.liveRegs, State.rpBytesKept, State.rpPosKept, visible_passSends, visible_frameResent]
  rcases Bool.eq_false_or_eq_true s.passSends with hs | hs
  · simp only [hs, if_true]
    refine ⟨?_, trivial⟩
    have hsome : (find s.cur.slots s.cur.rpId).isSome = true := by
      simp only [State.passSends, Bool.and_eq_true] at hs
      exact hs.2
    have hpass : s.cur.rpPass = true := by
      simp only [State.passSends, Bool.and_eq_true] at hs
      exact rpPass_of_passBetween s hs.1.1
    obtain ⟨k, hk⟩ := Option.isSome_iff_exists.mp hsome
    obtain ⟨sl, hsl, ho, -⟩ := find_some _ _ _ hk
    have hv : s.visible.cur.slots[k]? = some sl := by
      have hmap : s.visible.cur.slots = s.cur.slots.map Slot.seen := rfl
      rw [hmap, List.getElem?_map, hsl, Option.map_some, Slot.seen_of_occ sl ho]
    simp only [State.cursorFrame, visible_rpId s hpass, visible_find, hk, Option.map_some, Option.getD_some,
      List.getD_eq_getElem?_getD, hv, hsl]
  · have hbusy : s.cur.rpBusy = true := by
      by_contra hn
      simp [State.liveRegs, State.rpBusyKept, hs, hn] at hb
    obtain ⟨h1, h2⟩ := visible_copy s hbusy
    have hbr : s.visible.byteResent = s.byteResent := rfl
    simp only [hs, h1, h2, hbr, Bool.false_eq_true, if_false, and_self]

/-- Blanking out the unspecified values changes nothing that is seen after a tick. -/
theorem visible_liveRegs (h : s.Inv) : s.visible.liveRegs.seen = s.liveRegs.seen := by
  refine (seen_congr (visible_specified s).symm (visible_slotsNext h).symm (fun ht => (visible_txCrc_next ht).symm)
    (fun hc => ?_) (fun hp => (visible_rpId_next hp).symm) (fun hb => ?_)).symm
  · obtain ⟨h1, h2⟩ := visible_message_next hc
    exact ⟨h1.symm, h2.symm⟩
  · obtain ⟨h1, h2⟩ := visible_copy_next hb
    exact ⟨h1.symm, h2.symm⟩

theorem visible_congr {s' : State} (hp : s.par = s'.par) (hl : s.line = s'.line) (hc : s.cur.seen = s'.cur.seen) :
    s.visible = s'.visible := by
  simp only [State.visible, hp, hl, hc]

end Unseen

/-- Settles O58: outputs and seen registers after a tick are those of the state with the unspecified values blanked out. -/
theorem unspecifiedValuesInvisible : Obligations.UnspecifiedValuesInvisible := by
  intro s s' t t' hi hi' hp hl hc ht ht'
  have hv := visible_congr hp hl hc
  rcases Bool.eq_false_or_eq_true s.line.live with hlive | hlive
  · obtain ⟨-, hcur, hout⟩ := step_next_of_live hlive ht
    obtain ⟨-, hcur', hout'⟩ := step_next_of_live (hl ▸ hlive) ht'
    rw [hcur, hcur', hout, hout', ← visible_liveOut s, ← visible_liveOut s', ← visible_liveRegs hi, ← visible_liveRegs hi',
      hv]
    exact ⟨rfl, rfl⟩
  · obtain ⟨-, hcur, hout⟩ := step_next_of_down hlive ht
    obtain ⟨-, hcur', hout'⟩ := step_next_of_down (hl ▸ hlive) ht'
    rw [hcur, hcur', hout, hout', hp]
    exact ⟨rfl, rfl⟩

end Sys2Proof.Machine
end

section
namespace Sys2Proof.Machine

/-! ## Every operation keeps the start of the tick, R44, R60 -/

/-! ### The shared operations -/

theorem State.SameTick.refl (s : State) : s.SameTick s := ⟨rfl, rfl, rfl⟩

theorem State.SameTick.trans {s t u : State} (h : s.SameTick t) (h' : t.SameTick u) : s.SameTick u :=
  ⟨h'.par.trans h.par, h'.cur.trans h.cur, h'.inputs.trans h.inputs⟩

theorem sameTick_write (s : State) (f : Regs → Regs) : s.SameTick (s.write f) := ⟨rfl, rfl, rfl⟩

theorem sameTick_drive (s : State) (f : PortOut → PortOut) : s.SameTick (s.drive f) := ⟨rfl, rfl, rfl⟩

theorem sameTick_request (s : State) (f : RbqPorts → RbqPorts) : s.SameTick (s.request f) := ⟨rfl, rfl, rfl⟩

theorem sameTick_answer (s : State) (f : Answers → Answers) : s.SameTick (s.answer f) := ⟨rfl, rfl, rfl⟩

theorem sameTick_offer (s : State) (d : Byte) (sof eof bad : Bool) : s.SameTick (s.offer d sof eof bad) :=
  sameTick_drive s _

theorem sameTick_ite {s t u : State} (c : Prop) [Decidable c] (ht : s.SameTick t) (hu : s.SameTick u) :
    s.SameTick (if c then t else u) := by
  split
  · exact ht
  · exact hu

/-- R183: an effect that waits for the link, after what is driven whether the link takes it or not. -/
theorem sameTick_whenTaken {s t : State} {e : State → State} (ht : s.SameTick t) (he : t.SameTick (e t)) :
    s.SameTick (t.whenTaken e) :=
  sameTick_ite _ (ht.trans he) ht

theorem sameTick_storeFrame (s : State) (id : Seq) (bytes : List Byte) : s.SameTick (s.storeFrame id bytes) := by
  obtain h | ⟨k, -, -, -, h⟩ := storeFrame_cases s id bytes
  · rw [h]; exact .refl s
  · exact h ▸ sameTick_write s _

theorem sameTick_serviceDeletes (s : State) (c : DelCause) (ids : List Seq) : s.SameTick (s.serviceDeletes c ids) := by
  obtain ⟨sl, ds, h⟩ := serviceDeletes_frame c ids s
  exact h ▸ ⟨rfl, rfl, rfl⟩

theorem sameTick_startSend (s : State) (id : Seq) : s.SameTick (s.startSend id) := by
  obtain ⟨-, h⟩ | ⟨k, -, h⟩ := startSend_cases s id
  · rw [h]; exact .refl s
  · exact h ▸ sameTick_write s _

theorem sameTick_sendBeat (s : State) : s.SameTick s.sendBeat :=
  sameTick_whenTaken (sameTick_offer s _ _ _ _) (sameTick_ite _ (sameTick_write _ _) (sameTick_write _ _))

theorem sameTick_capture (s : State) (d : Byte) : s.SameTick (s.capture d) :=
  sameTick_ite _ (sameTick_write s _) (sameTick_write s _)

theorem sameTick_schedNow (s : State) (positive : Bool) (i : Seq) : s.SameTick (s.schedNow positive i) := ⟨rfl, rfl, rfl⟩

theorem sameTick_releaseStaging (s : State) (next : RxState) : s.SameTick (s.releaseStaging next) := sameTick_write s _

theorem sameTick_raiseNak (s : State) : s.SameTick s.raiseNak := by
  obtain ⟨-, h⟩ | ⟨-, h⟩ := raiseNak_cases s
  · exact h ▸ sameTick_releaseStaging s _
  · exact h ▸ ((sameTick_schedNow s _ _).trans (sameTick_write _ _)).trans (sameTick_releaseStaging _ _)

theorem sameTick_acceptFrame (s : State) : s.SameTick s.acceptFrame := by
  obtain ⟨-, h⟩ | ⟨-, h⟩ := acceptFrame_cases s
  · exact h ▸ (sameTick_write s _).trans (sameTick_releaseStaging _ _)
  · exact h ▸ ((sameTick_write s _).trans (sameTick_schedNow _ _ _)).trans (sameTick_releaseStaging _ _)

/-- R200, R192: whichever of its cases the pass is in. -/
theorem sameTick_passTick (s : State) : s.SameTick s.passTick := by
  unfold State.passTick
  split
  case h_1 =>
    exact sameTick_ite _ (sameTick_ite _ ((sameTick_sendBeat s).trans (sameTick_write _ _)) (sameTick_sendBeat s))
      (sameTick_ite _ (sameTick_write s _)
        (sameTick_ite _
          (sameTick_ite _ (sameTick_write s _) (sameTick_ite _ (sameTick_startSend s _) (sameTick_write s _)))
          (sameTick_ite _ (sameTick_write s _) (.refl s))))
  case h_2 => exact sameTick_ite _ ((sameTick_write s _).trans (sameTick_write _ _)) (.refl s)

/-! ### The operations -/

/-- The operation `i` answers a next state of the same tick. -/
def StaysInTick (i : Instr) : Prop := ∀ s : State, ∃ t, exec i s = .next t ∧ s.SameTick t

theorem staysInTick_of_happens {i : Instr} (c : State → Bool) (e : State → State) (hx : ∀ s, exec i s = happens c e s)
    (he : ∀ s : State, s.SameTick (e s)) : StaysInTick i := fun s =>
  ⟨_, hx s, sameTick_ite _ (he s) (.refl s)⟩

theorem staysInTick_of_always {i : Instr} (e : State → State) (hx : ∀ s, exec i s = always e s)
    (he : ∀ s : State, s.SameTick (e s)) : StaysInTick i := fun s => ⟨e s, hx s, he s⟩

/-- An operation that offers a beat and, when the link takes it, has an effect (R171, R183). -/
theorem staysInTick_of_offered {i : Instr} (c : State → Bool) (o : State → State) (e : State → State → State)
    (hx : ∀ s, exec i s = happens c (fun t => (o t).whenTaken (e t)) s) (ho : ∀ s : State, s.SameTick (o s))
    (he : ∀ s u : State, u.SameTick (e s u)) : StaysInTick i :=
  staysInTick_of_happens c _ hx fun s => sameTick_whenTaken (ho s) (he s _)

/-- What each operation does to the state it is given, group by group. -/
theorem instr_staysInTick (i : Instr) : StaysInTick i := by
  cases i
  case seqDist | seqInc | seqDec | seqOldeq | seqPrecedes | seqWinopen | rbCount =>
    exact staysInTick_of_always _ (fun _ => rfl) fun s => sameTick_answer s _
  case linkDown =>
    exact staysInTick_of_always _ (fun _ => rfl) fun s =>
      sameTick_ite _ ((sameTick_write s _).trans (sameTick_drive _ _)) (.refl s)
  case rbContains => exact staysInTick_of_happens _ _ (fun _ => rfl) fun s => sameTick_answer s _
  case status => exact staysInTick_of_happens _ _ (fun _ => rfl) fun s => sameTick_drive s _
  case txAckIgnored | txNakIgnored | rxStray => exact staysInTick_of_happens _ _ (fun _ => rfl) State.SameTick.refl
  case txReplayDrop | txReplayExit | txReplayPassend | txReplayAgain | txReplaySkip | txReplayNext | txNak | txTimeout |
      rxqPop =>
    exact staysInTick_of_happens _ _ (fun _ => rfl) fun s => sameTick_write s _
  case txReplayEnter =>
    exact staysInTick_of_happens _ _ (fun _ => rfl) fun s => (sameTick_write s _).trans (sameTick_write _ _)
  case txReplaySend => exact staysInTick_of_happens _ _ (fun _ => rfl) fun s => sameTick_request s _
  case txAck =>
    exact staysInTick_of_happens _ _ (fun _ => rfl) fun s => (sameTick_request s _).trans (sameTick_write _ _)
  case rbStore => exact staysInTick_of_happens _ _ (fun _ => rfl) fun s => sameTick_storeFrame s _ _
  case rbDelete => exact staysInTick_of_happens _ _ (fun _ => rfl) fun s => sameTick_serviceDeletes s _ _
  case rbSend req =>
    cases req
    case start => exact staysInTick_of_happens _ _ (fun _ => rfl) fun s => sameTick_startSend s _
    case beat => exact staysInTick_of_happens _ _ (fun _ => rfl) sameTick_sendBeat
  case rbSendall => exact staysInTick_of_happens _ _ (fun _ => rfl) sameTick_passTick
  case txStart | txHdr1 | txCrc =>
    exact staysInTick_of_offered _ _ _ (fun _ => rfl) (fun s => sameTick_offer s _ _ _ _) fun _ u => sameTick_write u _
  case txAbort | txComplete =>
    exact staysInTick_of_offered _ _ _ (fun _ => rfl) (fun s => sameTick_offer s _ _ _ _)
      fun _ u => (sameTick_request u _).trans (sameTick_write _ _)
  case txData =>
    exact staysInTick_of_offered _ _ _ (fun _ => rfl) (fun s => (sameTick_offer s _ _ _ _).trans (sameTick_drive _ _))
      fun _ u => sameTick_ite _ (sameTick_write u _) (sameTick_write u _)
  case txOverlen =>
    exact staysInTick_of_offered _ _ _ (fun _ => rfl) (fun s => (sameTick_offer s _ _ _ _).trans (sameTick_drive _ _))
      fun _ u => (sameTick_write u _).trans (sameTick_write _ _)
  case txNullify =>
    exact staysInTick_of_happens _ _ (fun _ => rfl) fun s => (sameTick_drive s _).trans (sameTick_write _ _)
  case rxStart =>
    exact staysInTick_of_happens _ _ (fun _ => rfl) fun s => sameTick_ite _ (sameTick_write s _) (sameTick_write s _)
  case rxData => exact staysInTick_of_happens _ _ (fun _ => rfl) fun s => sameTick_capture s _
  case rxEnd | rxTrunc =>
    exact staysInTick_of_happens _ _ (fun _ => rfl) fun s => (sameTick_capture s _).trans (sameTick_write _ _)
  case rxAccept => exact staysInTick_of_happens _ _ (fun _ => rfl) sameTick_acceptFrame
  case rxDup =>
    exact staysInTick_of_happens _ _ (fun _ => rfl) fun s => (sameTick_schedNow s _ _).trans (sameTick_releaseStaging _ _)
  case rxGap | rxCorrupt => exact staysInTick_of_happens _ _ (fun _ => rfl) sameTick_raiseNak
  case rxSpace =>
    exact staysInTick_of_happens _ _ (fun _ => rfl) fun s => (sameTick_schedNow s _ _).trans (sameTick_write _ _)
  case ctlSend =>
    exact staysInTick_of_happens _ _ (fun _ => rfl) fun s =>
      sameTick_ite _ ((sameTick_drive s _).trans (sameTick_write _ _)) (sameTick_drive s _)
  case rxKeepalive =>
    exact staysInTick_of_happens _ _ (fun _ => rfl) fun s =>
      sameTick_ite _ (sameTick_write s _) ((sameTick_write s _).trans (sameTick_write _ _))

/-- Settles O36: every operation is made of updates that stay in the tick. -/
theorem operationsKeepStartOfTick : Obligations.OperationsKeepStartOfTick := by
  intro i s
  obtain ⟨t, hx, h⟩ := instr_staysInTick i s
  exact ⟨t, hx, h.cur, h.par, h.inputs⟩

end Sys2Proof.Machine
end

section
namespace Sys2Proof.Machine

/-! ## Which operations a tick runs, R105, R140, R171, R200, R262 -/

/-! ### The operations that the registers select -/

/-- R174, R177, R179, R180: the operations of the framer that no word selects. -/
def framerOperations : List Instr := [.txHdr1, .txCrc, .txAbort, .txComplete]

/-- R151, R192 to R199: the operations of the replay controller. -/
def replayOperations : List Instr :=
  [.rbSend .beat, .txReplayEnter, .txReplayDrop, .txReplayExit, .txReplayPassend, .txReplaySend, .txReplayAgain,
   .txReplaySkip, .txReplayNext]

theorem mem_framerOps (s : State) (i : Instr) :
    i ∈ s.framerOps ↔
      (i = .txHdr1 ∧ s.framing .hdr1 = true) ∨ (i = .txCrc ∧ s.trailing = true) ∨
      (i = .txAbort ∧ s.framing .crc3 = true ∧ s.cur.txNull = true) ∨
      (i = .txComplete ∧ s.framing .crc3 = true ∧ s.cur.txNull = false) := by
  cases hr : s.cur.rcState
  case replaying => simp [State.framerOps, State.trailing, State.framing, hr]
  case idle =>
    cases hf : s.cur.frState
    case crc3 => cases hn : s.cur.txNull <;> simp [State.framerOps, State.trailing, State.framing, hr, hf, hn]
    all_goals simp [State.framerOps, State.trailing, State.framing, hr, hf]

/-- With nothing stored a request for a replay is dropped, else it starts a pass (R190). -/
theorem reqDrop_of_passStart (s : State) (h : s.passStart = true) : s.reqDrop = false := by
  obtain ⟨⟨-, hc⟩, -⟩ : (s.cur.replayReq = true ∧ 0 < s.rbCount) ∧ _ := by simpa [State.passStart] using h
  simp [State.reqDrop, hc.ne']

/-- In `RC_IDLE` the controller enters a pass or drops the request (R192, R193). -/
theorem mem_replayOps_of_idle (s : State) (i : Instr) (hr : s.cur.rcState = .idle) :
    i ∈ s.replayOps ↔ (i = .txReplayEnter ∧ s.passStart = true) ∨ (i = .txReplayDrop ∧ s.reqDrop = true) := by
  cases hp : s.passStart
  · cases hd : s.reqDrop <;> simp [State.replayOps, hr, hp, hd]
  · simp [State.replayOps, hr, hp, reqDrop_of_passStart s hp]

/-- While a frame is re-sent the controller sends a beat, and after the last one moves the cursor (R151, R199). -/
theorem mem_replayOps_of_busy (s : State) (i : Instr) (hr : s.cur.rcState = .replaying) (hb : s.cur.rpBusy = true) :
    i ∈ s.replayOps ↔ i = .rbSend .beat ∨ (i = .txReplayNext ∧ (s.lastBeat && s.line.txReady) = true) := by
  cases hl : s.lastBeat && s.line.txReady <;> simp [State.replayOps, hr, hb, hl]

/-- Between two frames the controller leaves, ends or starts a pass, sends, or steps over an id (R194 to R198). -/
theorem mem_replayOps_of_waiting (s : State) (i : Instr) (hr : s.cur.rcState = .replaying) (hb : s.cur.rpBusy = false) :
    i ∈ s.replayOps ↔
      (i = .txReplayExit ∧ s.passExits = true) ∨ (i = .txReplayPassend ∧ s.passEnds = true) ∨
      (i = .txReplaySend ∧ s.passSends = true) ∨ (i = .txReplaySkip ∧ s.passSkips = true) ∨
      (i = .txReplayAgain ∧ s.passStart = true) := by
  have hw : s.replayWaiting = true := by simp [State.replayWaiting, hr, hb]
  have hn : decide (0 < s.rbCount) = !s.rbEmpty := by
    cases h : s.rbEmpty <;> simp_all [State.rbEmpty, Nat.pos_iff_ne_zero]
  have hs := passStart_of_replaying s hr
  have hpb : s.passBetween = (s.cur.rpPass && !s.rbEmpty) := by simp [State.passBetween, hw, hn]
  simp only [hb, hn] at hs
  simp only [State.passExits, State.passEnds, State.passSends, State.passSkips, State.replayOps, hr, hw, hb, hpb]
  cases he : s.rbEmpty
  case true => simp [hs, he]
  case false =>
    cases hp : s.cur.rpPass
    case false => cases ha : s.passStart <;> simp
    case true =>
      rw [he, hp] at hs
      by_cases hi : s.cur.rpId = s.cur.nts
      · simp [hi, hs]
      · cases hf : find s.cur.slots s.cur.rpId <;> simp [hi, hs]

/-- The operations of the replay controller, each with the registers that select it (R192 to R200). -/
theorem mem_replayOps (s : State) (i : Instr) :
    i ∈ s.replayOps ↔
      (i = .rbSend .beat ∧ s.resends = true) ∨ (i = .txReplayNext ∧ s.frameResent = true) ∨
      (i = .txReplayEnter ∧ s.cur.rcState = .idle ∧ s.passStart = true) ∨ (i = .txReplayDrop ∧ s.reqDrop = true) ∨
      (i = .txReplayExit ∧ s.passExits = true) ∨ (i = .txReplayPassend ∧ s.passEnds = true) ∨
      (i = .txReplaySend ∧ s.passSends = true) ∨ (i = .txReplaySkip ∧ s.passSkips = true) ∨
      (i = .txReplayAgain ∧ s.cur.rcState = .replaying ∧ s.passStart = true) := by
  cases hr : s.cur.rcState
  case idle =>
    have hw : s.replayWaiting = false := by simp [State.replayWaiting, hr]
    have hq : s.resends = false := by simp [State.resends, hr]
    simp [mem_replayOps_of_idle s i hr, State.frameResent, State.passExits, State.passEnds, State.passSends,
      State.passSkips, State.passBetween, hw, hq]
  case replaying =>
    have hd : s.reqDrop = false := by simp [State.reqDrop, State.framing, hr]
    cases hb : s.cur.rpBusy
    case false =>
      have hq : s.resends = false := by simp [State.resends, hb]
      simp [mem_replayOps_of_waiting s i hr hb, State.frameResent, hq, hd]
    case true =>
      have hw : s.replayWaiting = false := by simp [State.replayWaiting, hb]
      have hq : s.resends = true := by simp [State.resends, hr, hb]
      have hp : s.passStart = false := by simp [passStart_of_replaying s hr, hb]
      simp [mem_replayOps_of_busy s i hr hb, State.frameResent, State.passExits, State.passEnds, State.passSends,
        State.passSkips, State.passBetween, hw, hq, hd, hp]

/-- The receive engine has the class of the frame under validation, or the deferred ACK (R226, R236). -/
theorem mem_rxOps (s : State) (i : Instr) :
    i ∈ s.rxOps ↔
      (s.cur.rxState = .validating ∧ decode s.decodeCtx (.vc s.rxClass.code) = .instr i) ∨
      (i = .rxSpace ∧ s.spaceFound = true) := by
  cases hx : s.cur.rxState
  case idle | receiving => simp [State.rxOps, State.spaceFound, hx]
  case validating => simp [State.rxOps, State.spaceFound, hx, mem_decoded]
  case waitspace =>
    by_cases h : s.rxqCount < s.par.rxCap <;> simp [State.rxOps, State.spaceFound, hx, h]

/-! ### Their conditions of the opcode table -/

@[simp] theorem selects_txHdr1 (s : State) : s.selects .txHdr1 = s.framing .hdr1 := rfl
@[simp] theorem selects_txCrc (s : State) : s.selects .txCrc = s.trailing := rfl
@[simp] theorem selects_txAbort (s : State) : s.selects .txAbort = (s.framing .crc3 && s.cur.txNull) := rfl
@[simp] theorem selects_txComplete (s : State) : s.selects .txComplete = (s.framing .crc3 && !s.cur.txNull) := rfl
@[simp] theorem selects_rbSend_beat (s : State) : s.selects (.rbSend .beat) = s.cur.rpBusy := rfl
@[simp] theorem selects_txReplayEnter (s : State) :
    s.selects .txReplayEnter = (s.cur.rcState == .idle && s.passStart) := rfl
@[simp] theorem selects_txReplayDrop (s : State) : s.selects .txReplayDrop = s.reqDrop := rfl
@[simp] theorem selects_txReplayExit (s : State) : s.selects .txReplayExit = s.passExits := rfl
@[simp] theorem selects_txReplayPassend (s : State) : s.selects .txReplayPassend = s.passEnds := rfl
@[simp] theorem selects_txReplaySend (s : State) : s.selects .txReplaySend = s.passSends := rfl
@[simp] theorem selects_txReplayAgain (s : State) :
    s.selects .txReplayAgain = (s.cur.rcState == .replaying && s.passStart) := rfl
@[simp] theorem selects_txReplaySkip (s : State) : s.selects .txReplaySkip = s.passSkips := rfl
@[simp] theorem selects_txReplayNext (s : State) :
    s.selects .txReplayNext = (s.cur.rpBusy && s.lastBeat && s.line.txReady) := rfl
@[simp] theorem selects_rxAccept (s : State) : s.selects .rxAccept = s.validates .accept := rfl
@[simp] theorem selects_rxDup (s : State) : s.selects .rxDup = s.validates .duplicate := rfl
@[simp] theorem selects_rxGap (s : State) : s.selects .rxGap = s.validates .gap := rfl
@[simp] theorem selects_rxCorrupt (s : State) : s.selects .rxCorrupt = s.validates .corrupt := rfl
@[simp] theorem selects_rxSpace (s : State) : s.selects .rxSpace = s.spaceFound := rfl

theorem selects_of_mem_framerOps {s : State} {i : Instr} (h : i ∈ s.framerOps) : s.selects i = true := by
  rw [mem_framerOps] at h
  obtain ⟨rfl, hf⟩ | ⟨rfl, hf⟩ | ⟨rfl, hf, hn⟩ | ⟨rfl, hf, hn⟩ := h
  · exact hf
  · exact hf
  · simp [hf, hn]
  · simp [hf, hn]

theorem mem_framerOps_of_selects {s : State} {i : Instr} (hi : i ∈ framerOperations) (h : s.selects i = true) :
    i ∈ s.framerOps := by
  rw [mem_framerOps]
  simp only [framerOperations, List.mem_cons, List.not_mem_nil, or_false] at hi
  obtain rfl | rfl | rfl | rfl := hi <;> simpa using h

theorem selects_txReplayNext_of_frameResent {s : State} (h : s.frameResent = true) : s.selects .txReplayNext = true := by
  obtain ⟨hq, hl⟩ : s.resends = true ∧ s.lastBeat = true ∧ s.line.txReady = true := by simpa [State.frameResent] using h
  simp [rpBusy_of_resends s hq, hl]

theorem selects_of_mem_replayOps {s : State} {i : Instr} (h : i ∈ s.replayOps) : s.selects i = true := by
  rw [mem_replayOps] at h
  obtain ⟨rfl, h⟩ | ⟨rfl, h⟩ | ⟨rfl, hr, hp⟩ | ⟨rfl, h⟩ | ⟨rfl, h⟩ | ⟨rfl, h⟩ | ⟨rfl, h⟩ | ⟨rfl, h⟩ | ⟨rfl, hr, hp⟩ := h
  · exact rpBusy_of_resends s h
  · exact selects_txReplayNext_of_frameResent h
  · simp [hr, hp]
  · exact h
  · exact h
  · exact h
  · exact h
  · exact h
  · simp [hr, hp]

/-- R48 (f): a frame is re-sent only while replaying, so that `rp_busy` alone selects its beat (log entry 14). -/
theorem resends_of_busyInPass {s : State} (hb : s.cur.busyInPass) : s.resends = s.cur.rpBusy := by
  cases h : s.cur.rpBusy
  · simp [State.resends, h]
  · simp [State.resends, h, (hb h).2]

theorem frameResent_of_busyInPass {s : State} (hb : s.cur.busyInPass) : s.frameResent = s.selects .txReplayNext := by
  rw [State.frameResent, resends_of_busyInPass hb, selects_txReplayNext, Bool.and_assoc]

theorem mem_replayOps_of_selects {s : State} {i : Instr} (hb : s.cur.busyInPass) (hi : i ∈ replayOperations)
    (h : s.selects i = true) : i ∈ s.replayOps := by
  rw [mem_replayOps, resends_of_busyInPass hb, frameResent_of_busyInPass hb]
  simp only [replayOperations, List.mem_cons, List.not_mem_nil, or_false] at hi
  obtain rfl | rfl | rfl | rfl | rfl | rfl | rfl | rfl | rfl := hi <;> simpa using h

theorem selects_of_mem_rxOps {s : State} {i : Instr} (h : i ∈ s.rxOps) : s.selects i = true := by
  rw [mem_rxOps, ← mem_decoded, decoded_class] at h
  obtain ⟨hv, h⟩ | ⟨rfl, h⟩ := h
  · have hval : s.validates s.rxClass = true := by simp [State.validates, hv]
    cases hc : s.rxClass <;> rw [hc] at h hval <;> obtain rfl := List.mem_singleton.mp h <;> exact hval
  · exact h

/-- The operations that the registers select are those whose condition of the opcode table holds. -/
theorem selected_by_registers_iff {s : State} {i : Instr} (hb : s.cur.busyInPass)
    (hi : i ∈ framerOperations ++ replayOperations ++ [.rxSpace]) :
    (i ∈ s.framerOps ∨ i ∈ s.replayOps ∨ i ∈ s.rxOps) ↔ s.selects i = true := by
  constructor
  · rintro (h | h | h)
    · exact selects_of_mem_framerOps h
    · exact selects_of_mem_replayOps h
    · exact selects_of_mem_rxOps h
  · intro h
    rw [List.mem_append, List.mem_append, List.mem_singleton] at hi
    obtain (hf | hr) | rfl := hi
    · exact .inl (mem_framerOps_of_selects hf h)
    · exact .inr (.inl (mem_replayOps_of_selects hb hr h))
    · exact .inr (.inr ((mem_rxOps s _).mpr (.inr ⟨rfl, h⟩)))

/-! ### The whole list, and the step that runs it -/

/-- The ports whose words select operations at the start of a tick with the link up (log entry 15: `rp_id` on the query port). -/
def State.portWords (s : State) : List PortWord :=
  [.up s.line.uw, .beat s.line.bw, .ctl s.line.cw, .pop (BitVec.ofBool s.line.rxqPop), .query s.cur.rpId,
   .ctlOut (ctlWord s.cur.ctlPending s.cur.ctlPositive s.cur.ctlId)]

/-- With the link up: STATUS, what the registers select, and what the words decode to. -/
theorem mem_selected (s : State) (i : Instr) (hl : s.line.live = true) :
    i ∈ s.beginTick.selected ↔
      i = .status ∨ i ∈ s.framerOps ∨ i ∈ s.replayOps ∨ i ∈ s.rxOps ∨
        ∃ pw ∈ s.portWords, decode s.decodeCtx pw = .instr i := by
  have hops : s.beginTick.selected =
      [.status] ++ s.decoded (.query s.cur.rpId) ++ s.decoded (.pop (BitVec.ofBool s.line.rxqPop)) ++
        s.decoded (.ctlOut (ctlWord s.cur.ctlPending s.cur.ctlPositive s.cur.ctlId)) ++ s.replayOps ++
        s.decoded (.ctl s.line.cw) ++ s.decoded (.up s.line.uw) ++ s.framerOps ++ s.decoded (.beat s.line.bw) ++ s.rxOps :=
    selected_of_live s.beginTick hl
  simp only [hops, List.mem_append, mem_decoded, State.portWords, List.mem_cons, List.not_mem_nil,
    or_false, exists_eq_or_imp, exists_eq_left]
  simp only [or_assoc, or_comm, or_left_comm]

/-- The class code of the frame under validation adds no operation that the receive engine has not (R226). -/
theorem decoded_port_or_class_iff (s : State) (i : Instr) :
    (i ∈ s.rxOps ∨ ∃ pw ∈ s.portWords, decode s.decodeCtx pw = .instr i) ↔
      i ∈ s.rxOps ∨ ∃ pw, (pw ∈ s.portWords ∨ (s.cur.rxState = .validating ∧ pw = .vc s.rxClass.code)) ∧
        decode s.decodeCtx pw = .instr i := by
  constructor
  · rintro (h | ⟨pw, hpw, hd⟩)
    · exact .inl h
    · exact .inr ⟨pw, .inl hpw, hd⟩
  · rintro (h | ⟨pw, hpw | ⟨hv, rfl⟩, hd⟩)
    · exact .inl h
    · exact .inr ⟨pw, hpw, hd⟩
    · exact .inl ((mem_rxOps s i).mpr (.inl ⟨hv, hd⟩))

theorem andThen_assoc (o : Host.Outcome State Fault Refusal) (f g : State → Host.Outcome State Fault Refusal) :
    andThen (andThen o f) g = andThen o fun s => andThen (f s) g := by
  cases o <;> rfl

/-- A step, read at one of the operations of its list. -/
theorem step_of_selected {s : State} {before after : List Instr} {i : Instr} (hw : s.par.wf = true)
    (h : s.beginTick.selected = before ++ i :: after) :
    step s = andThen (runAll before s.beginTick) fun t => andThen (exec i t) fun u => andThen (runAll after u) fun v =>
      andThen (runAll v.requested v) fun w => andThen (runAll w.expired w) fun x => .next x.clockTimers.endTick := by
  simp only [step_of_wf s hw, runTick, h, runAll_append, runAll_cons, andThen_assoc]

/-- R262: a link word that selects an operation selects LINK.DOWN, and the link is down. -/
theorem linkDown_of_decode_link {s : State} {i : Instr}
    (h : decode s.decodeCtx (.link (linkWord s.line.rst s.line.linkUp)) = .instr i) :
    i = .linkDown s.line.rst s.line.linkUp ∧ (s.line.rst || !s.line.linkUp) = true := by
  simp only [decode, linkWordRst_linkWord, linkWordUp_linkWord] at h
  split at h
  case isTrue hd =>
    rw [Decoded.instr.injEq] at h
    exact ⟨h.symm, hd⟩
  case isFalse => cases h

/-- R262: with the link down a step is LINK.DOWN and the commit. -/
theorem step_of_link_word {s : State} {i : Instr} (hw : s.par.wf = true)
    (h : decode s.decodeCtx (.link (linkWord s.line.rst s.line.linkUp)) = .instr i) :
    step s = andThen (exec i s.beginTick) fun t => .next t.endTick := by
  obtain ⟨rfl, hd⟩ := linkDown_of_decode_link h
  have hl : s.line.live = false := by
    rw [Line.live, ← Bool.not_eq_true', Bool.not_and, Bool.not_not, Bool.or_comm, hd]
  have hx : exec (.linkDown s.line.rst s.line.linkUp) s.beginTick = .next s.beginTick.resetNow := by
    simp only [exec, execLinkDown, always, hd, if_true]
  rw [step_of_down s hw hl, hx]
  rfl

theorem mem_requested (v : State) (i : Instr) :
    i ∈ v.requested ↔
      ∃ pw ∈ [PortWord.delA v.req.delA, .delB v.req.delB, .store v.req.store v.req.storeBytes, .send v.req.send],
        decode v.decodeCtx pw = .instr i := by
  simp only [State.requested, List.mem_append, mem_decoded, List.mem_cons, List.not_mem_nil, or_false, exists_eq_or_imp,
    exists_eq_left, or_assoc]

theorem mem_expired (w : State) (i : Instr) :
    i ∈ w.expired ↔
      w.line.live = true ∧ ((i = .txTimeout ∧ w.replayExpires = true) ∨ (i = .rxKeepalive ∧ w.ackExpires = true)) := by
  cases hl : w.line.live
  · simp [State.expired, hl]
  · simp [State.expired, hl, and_comm]

/-- Settles O37: membership in the tick's list from its parts, and the step cut at the operation in question. -/
theorem stepRunsDecodedWord : Obligations.StepRunsDecodedWord := by
  refine ⟨fun s i hw hl => ⟨?_, fun before after h => step_of_selected hw h⟩, fun s i hb hi => ?_,
    fun s i hw h => step_of_link_word hw h, mem_requested, mem_expired⟩
  · rw [← List.mem_iff_append, mem_selected s i hl, decoded_port_or_class_iff]
    rfl
  · exact selected_by_registers_iff hb hi

end Sys2Proof.Machine
end

section
namespace Sys2Proof

/-! ## The decoder is the inverse of the encoder, R91 to R105

What each port's word decodes to, written as the word built from its fields; then one operation at a time. -/

/-! ### The upper layer's word, R172 to R178 -/

theorem decode_up_opening {c : DecodeCtx} (h : c.up = .opening) (last : Bool) (d : Byte) :
    decode c (.up (upWord true last d)) = .instr .txStart := by
  simp [decode, decodeUp, h]

theorem decode_up_payload_invalid {c : DecodeCtx} {atMax : Bool} (h : c.up = .payload atMax) (last : Bool) (d : Byte) :
    decode c (.up (upWord false last d)) = .instr .txNullify := by
  simp [decode, decodeUp, h]

/-- R175: a payload byte that is the last one, or that leaves room for another. -/
theorem decode_up_payload_data {c : DecodeCtx} {atMax last : Bool} (h : c.up = .payload atMax)
    (hm : (!last && atMax) = false) (d : Byte) : decode c (.up (upWord true last d)) = .instr (.txData last d) := by
  simp only [decode, decodeUp, h, upWordValid_upWord, upWordLast_upWord, upWordData_upWord, hm, if_true,
    Bool.false_eq_true, if_false]

/-- R178: payload byte number MAX_PAYLOAD without `up_last`. -/
theorem decode_up_payload_overlen {c : DecodeCtx} (h : c.up = .payload true) (d : Byte) :
    decode c (.up (upWord true false d)) = .instr (.txOverlen d) := by
  simp [decode, decodeUp, h]

/-! ### A beat of the incoming frame stream, R220 to R225 -/

theorem decode_beat_start {c : DecodeCtx} (h : c.rx = .idle) (eof bad : Bool) (d : Byte) :
    decode c (.beat (beatWord true true eof bad d)) = .instr (.rxStart eof bad d) := by
  simp [decode, decodeBeat, h]

theorem decode_beat_stray {c : DecodeCtx} (h : c.rx = .idle) (eof bad : Bool) (d : Byte) :
    decode c (.beat (beatWord true false eof bad d)) = .instr .rxStray := by
  simp [decode, decodeBeat, h]

/-- R223: inside a frame `sof` is ignored, and so is `bad` without `eof`. -/
theorem decode_beat_data {c : DecodeCtx} (h : c.rx = .receiving) (sof bad : Bool) (d : Byte) :
    decode c (.beat (beatWord true sof false bad d)) = .instr (.rxData d) := by
  simp [decode, decodeBeat, h]

theorem decode_beat_end {c : DecodeCtx} (h : c.rx = .receiving) (sof : Bool) (d : Byte) :
    decode c (.beat (beatWord true sof true false d)) = .instr (.rxEnd d) := by
  simp [decode, decodeBeat, h]

theorem decode_beat_trunc {c : DecodeCtx} (h : c.rx = .receiving) (sof : Bool) (d : Byte) :
    decode c (.beat (beatWord true sof true true d)) = .instr (.rxTrunc d) := by
  simp [decode, decodeBeat, h]

/-! ### Control messages, R204 to R208, R239 -/

theorem decode_ctl_invalid (c : DecodeCtx) (positive : Bool) (id : Seq) :
    decode c (.ctl (ctlWord false positive id)) = .rejected .portIdle := by
  simp [decode, decodeCtl]

theorem decode_ctl_ack {c : DecodeCtx} {id : Seq} (h : c.unacked.contains id = true) :
    decode c (.ctl (ctlWord true true id)) = .instr (.txAck id) := by
  simp only [decode, decodeCtl, ctlWordValid_ctlWord, ctlWordPositive_ctlWord, ctlWordId_ctlWord, h, if_true]

theorem decode_ctl_ack_ignored {c : DecodeCtx} {id : Seq} (h : c.unacked.contains id = false) :
    decode c (.ctl (ctlWord true true id)) = .instr (.txAckIgnored id) := by
  simp only [decode, decodeCtl, ctlWordValid_ctlWord, ctlWordPositive_ctlWord, ctlWordId_ctlWord, h, if_true,
    Bool.false_eq_true, if_false]

theorem decode_ctl_nak {c : DecodeCtx} (h : c.passBusy = false) (id : Seq) :
    decode c (.ctl (ctlWord true false id)) = .instr (.txNak id) := by
  simp [decode, decodeCtl, h]

theorem decode_ctl_nak_ignored {c : DecodeCtx} (h : c.passBusy = true) (id : Seq) :
    decode c (.ctl (ctlWord true false id)) = .instr (.txNakIgnored id) := by
  simp [decode, decodeCtl, h]

theorem decode_ctlOut_ctlWord (c : DecodeCtx) (positive : Bool) (id : Seq) :
    decode c (.ctlOut (ctlWord true positive id)) = .instr (.ctlSend positive id) := by
  simp [decode]

/-! ### The retry buffer's ports, R101 -/

theorem decode_store_reqWord (c : DecodeCtx) (id : Seq) (bytes : List Byte) :
    decode c (.store (reqWord true id) bytes) = .instr (.rbStore id bytes) := by
  simp [decode]

theorem decode_delA_rangeWord (c : DecodeCtx) (lo hi : Seq) :
    decode c (.delA (rangeWord true lo hi)) = .instr (.rbDelete (.portA lo hi)) := by
  simp [decode]

theorem decode_delB_reqWord (c : DecodeCtx) (id : Seq) :
    decode c (.delB (reqWord true id)) = .instr (.rbDelete (.portB id)) := by
  simp [decode]

theorem decode_send_reqWord (c : DecodeCtx) (id : Seq) :
    decode c (.send (reqWord true id)) = .instr (.rbSend (.start id)) := by
  simp [decode]

/-! ### The link word, R262 -/

theorem decode_link_down {rst linkUp : Bool} (c : DecodeCtx) (h : (rst || !linkUp) = true) :
    decode c (.link (linkWord rst linkUp)) = .instr (.linkDown rst linkUp) := by
  simp only [decode, linkWordRst_linkWord, linkWordUp_linkWord, h, if_true]

theorem decode_link_up (c : DecodeCtx) : decode c (.link (linkWord false true)) = .rejected .linkIsUp := rfl

/-! ### Each operation -/

/-- The word of `i`, if it has one, decodes to `i` with every operand. -/
def RoundTrips (c : DecodeCtx) (i : Instr) : Prop := ∀ pw, encode i = some pw → decode c pw = .instr i

theorem roundTrips_of_word {c : DecodeCtx} {i : Instr} {pw : PortWord} (he : encode i = some pw)
    (hd : decode c pw = .instr i) : RoundTrips c i := fun pw' h => by
  rw [he, Option.some.injEq] at h
  exact h ▸ hd

theorem roundTrips_of_no_word {c : DecodeCtx} {i : Instr} (he : encode i = none) : RoundTrips c i := fun pw h => by
  rw [he] at h
  cases h

/-- R175, R178: a byte is data inside a frame, but for byte number MAX_PAYLOAD that is not marked as the last. -/
theorem admits_txData_iff (c : DecodeCtx) (last : Bool) (d : Byte) :
    c.admits (.txData last d) = true ↔ ∃ atMax, c.up = .payload atMax ∧ (!last && atMax) = false := by
  cases last <;> simp [DecodeCtx.admits]

theorem admits_txNullify_iff (c : DecodeCtx) : c.admits .txNullify = true ↔ ∃ atMax, c.up = .payload atMax := by
  simp [DecodeCtx.admits]

/-- Operation by operation: the port's decoder equation, under the condition that the registers meet.  Of well-formedness only
LINK.DOWN's part is needed (R262). -/
theorem instr_roundTrips (p : Params) (c : DecodeCtx) (i : Instr) (hw : i.wf p = true) (ha : c.admits i = true) :
    RoundTrips c i := by
  cases i
  case seqDist | seqInc | seqDec | seqOldeq | seqPrecedes | seqWinopen | rbCount | rbSendall =>
    exact roundTrips_of_no_word rfl
  case txHdr1 | txCrc | txAbort | txComplete | txTimeout | rxSpace | rxKeepalive | status =>
    exact roundTrips_of_no_word rfl
  case txReplayEnter | txReplayDrop | txReplayExit | txReplayPassend | txReplaySend | txReplayAgain | txReplaySkip |
      txReplayNext =>
    exact roundTrips_of_no_word rfl
  case rbStore id bytes => exact roundTrips_of_word rfl (decode_store_reqWord c id bytes)
  case rbDelete req =>
    cases req
    case portA lo hi => exact roundTrips_of_word rfl (decode_delA_rangeWord c lo hi)
    case portB id => exact roundTrips_of_word rfl (decode_delB_reqWord c id)
  case rbContains => exact roundTrips_of_word rfl rfl
  case rbSend req =>
    cases req
    case start id => exact roundTrips_of_word rfl (decode_send_reqWord c id)
    case beat => exact roundTrips_of_no_word rfl
  case txStart => exact roundTrips_of_word rfl (decode_up_opening (eq_of_beq ha) _ _)
  case txData last d =>
    obtain ⟨atMax, hup, hm⟩ := (admits_txData_iff c last d).mp ha
    exact roundTrips_of_word rfl (decode_up_payload_data hup hm d)
  case txNullify =>
    obtain ⟨atMax, hup⟩ := (admits_txNullify_iff c).mp ha
    exact roundTrips_of_word rfl (decode_up_payload_invalid hup _ _)
  case txOverlen d => exact roundTrips_of_word rfl (decode_up_payload_overlen (eq_of_beq ha) d)
  case txAck => exact roundTrips_of_word rfl (decode_ctl_ack ha)
  case txAckIgnored => exact roundTrips_of_word rfl (decode_ctl_ack_ignored ((Bool.not_eq_true' _).mp ha))
  case txNak id => exact roundTrips_of_word rfl (decode_ctl_nak ((Bool.not_eq_true' _).mp ha) id)
  case txNakIgnored id => exact roundTrips_of_word rfl (decode_ctl_nak_ignored ha id)
  case rxStart eof bad d => exact roundTrips_of_word rfl (decode_beat_start (eq_of_beq ha) eof bad d)
  case rxStray => exact roundTrips_of_word rfl (decode_beat_stray (eq_of_beq ha) _ _ _)
  case rxData d => exact roundTrips_of_word rfl (decode_beat_data (eq_of_beq ha) _ _ d)
  case rxEnd d => exact roundTrips_of_word rfl (decode_beat_end (eq_of_beq ha) _ d)
  case rxTrunc d => exact roundTrips_of_word rfl (decode_beat_trunc (eq_of_beq ha) _ d)
  case rxAccept | rxDup | rxGap | rxCorrupt | rxqPop => exact roundTrips_of_word rfl rfl
  case ctlSend positive id => exact roundTrips_of_word rfl (decode_ctlOut_ctlWord c positive id)
  case linkDown => exact roundTrips_of_word rfl (decode_link_down c hw)

/-- Settles O59: operation by operation. -/
theorem decodeInvertsEncode : Obligations.DecodeInvertsEncode := fun p c i pw hw ha =>
  instr_roundTrips p c i hw ha pw

/-- Settles O60: each written word is the word of its fields, so that its port's decoder equation applies; the class code has no
fields and is looked up. -/
theorem writtenWordsDecode : Obligations.WrittenWordsDecode := by
  unfold Obligations.WrittenWordsDecode
  intro c
  exact ⟨decode_ctl_ack (id := 5) rfl, decode_ctl_ack_ignored (id := 6) rfl, decode_ctl_nak rfl 4095,
    decode_ctl_invalid c true 5, decode_beat_start rfl false false 0x0f, decode_beat_trunc rfl false 0x55,
    decode_up_payload_data (last := true) rfl rfl 0xaa, decode_up_payload_overlen rfl 0xaa,
    decode_up_payload_invalid rfl true 0, decode_delA_rangeWord c 1 3, decode_store_reqWord c 7 zeroFrame,
    rfl, decode_link_down (rst := false) (linkUp := false) c rfl, decode_link_up c⟩

end Sys2Proof
end

section
namespace Sys2Proof.Machine

/-! ## Nothing happens outside an operation's condition, R103, R262 -/

/-- The operation `i` leaves every state as it is in which its condition does not hold, and, unless it is available in every
tick, every state with the link down. -/
def InertOutsideCondition (i : Instr) : Prop :=
  ∀ s : State,
    (s.line.live = true → s.selects i = false → exec i s = .next s) ∧
    (s.line.live = false → anyTick i = false → exec i s = .next s)

/-- R105: an operation without a condition, available in every tick. -/
theorem inert_of_function {i : Instr} (hs : ∀ s : State, s.selects i = true) (ha : anyTick i = true) :
    InertOutsideCondition i := fun s =>
  ⟨fun _ h => absurd ((hs s).symm.trans h) (by decide),
    fun _ h => absurd (ha.symm.trans h) (by decide)⟩

/-- R262, R103: an operation of a tick with the link up that has no effect where its condition does not hold. -/
theorem inert_of_no_effect {i : Instr} (c : State → Bool) (e : State → State) (hx : ∀ s, exec i s = happens c e s)
    (he : ∀ s : State, s.selects i = false → c s = true → e s = s) : InertOutsideCondition i := fun s => by
  refine ⟨fun _ hs => ?_, fun hl _ => (hx s).trans (happens_not c e s (by rw [hl, Bool.false_and]))⟩
  cases hc : c s
  · exact (hx s).trans (happens_not c e s (by rw [hc, Bool.and_false]))
  · rw [hx s, happens, he s hs hc, ite_self]

/-- R103: an operation that happens under its condition of the opcode table. -/
theorem inert_of_condition {i : Instr} (e : State → State) (hx : ∀ s, exec i s = happens (fun t => t.selects i) e s) :
    InertOutsideCondition i :=
  inert_of_no_effect _ e hx fun s hs hc => by rw [hs] at hc; cases hc

/-- R200, R192: in `RC_IDLE` the pass does nothing unless one starts. -/
theorem passTick_of_not_selected (s : State) (h : s.selects .rbSendall = false) : s.passTick = s := by
  obtain ⟨hr, hp⟩ : (s.cur.rcState == .replaying) = false ∧ s.passStart = false := Bool.or_eq_false_iff.mp h
  cases hc : s.cur.rcState
  case replaying => simp [hc] at hr
  case idle => simp [State.passTick, hc, hp]

/-- R262: a link word with the link up resets nothing. -/
theorem exec_linkDown_of_up {rst linkUp : Bool} (s : State) (h : (rst || !linkUp) = false) :
    exec (.linkDown rst linkUp) s = .next s := by
  simp only [exec, execLinkDown, always, h, Bool.false_eq_true, if_false]

/-- How each operation is guarded, group by group. -/
theorem instr_inertOutsideCondition (i : Instr) : InertOutsideCondition i := by
  cases i
  case seqDist | seqInc | seqDec | seqOldeq | seqPrecedes | seqWinopen | rbCount =>
    exact inert_of_function (fun _ => rfl) rfl
  case linkDown => exact fun s => ⟨fun _ h => exec_linkDown_of_up s h, fun _ h => nomatch h⟩
  case rbSendall => exact inert_of_no_effect _ _ (fun _ => rfl) fun s hs _ => passTick_of_not_selected s hs
  case txAckIgnored | txNakIgnored => exact inert_of_no_effect _ _ (fun _ => rfl) fun _ _ _ => rfl
  case rbSend req => cases req <;> exact inert_of_condition _ fun _ => rfl
  case rbStore | rbDelete | rbContains | status => exact inert_of_condition _ fun _ => rfl
  case txStart | txHdr1 | txData | txNullify | txCrc | txOverlen | txAbort | txComplete =>
    exact inert_of_condition _ fun _ => rfl
  case txReplayEnter | txReplayDrop | txReplayExit | txReplayPassend | txReplaySend | txReplayAgain | txReplaySkip |
      txReplayNext =>
    exact inert_of_condition _ fun _ => rfl
  case txAck | txNak | txTimeout => exact inert_of_condition _ fun _ => rfl
  case rxStart | rxStray | rxData | rxEnd | rxTrunc | rxAccept | rxDup | rxGap | rxCorrupt | rxSpace =>
    exact inert_of_condition _ fun _ => rfl
  case ctlSend | rxKeepalive | rxqPop => exact inert_of_condition _ fun _ => rfl

/-- Settles O35: operation by operation. -/
theorem nothingOutsideItsCondition : Obligations.NothingOutsideItsCondition := instr_inertOutsideCondition

end Sys2Proof.Machine
end

section
namespace Sys2Proof.Machine

/-! ## Sequence arithmetic, R120 to R126 -/

/-! ### Distance, successor, predecessor -/

theorem seqDist_toNat (a b : Seq) : (seqDist a b).toNat = (a.toNat + 4096 - b.toNat) % 4096 := by
  rw [seqDist, BitVec.toNat_sub]
  omega

theorem seqDist_eq_ofNat (a b : Seq) : seqDist a b = BitVec.ofNat 12 ((a.toNat + 4096 - b.toNat) % 4096) := by
  rw [← seqDist_toNat, BitVec.ofNat_toNat, BitVec.setWidth_eq]

theorem seqInc_eq_ofNat (a : Seq) : seqInc a = BitVec.ofNat 12 ((a.toNat + 1) % 4096) :=
  BitVec.eq_of_toNat_eq (by simp [seqInc])

theorem seqDec_eq_ofNat (a : Seq) : seqDec a = BitVec.ofNat 12 ((a.toNat + 4095) % 4096) :=
  BitVec.eq_of_toNat_eq (by simp [seqDec, Nat.add_comm])

@[simp] theorem seqDist_self (a : Seq) : seqDist a a = 0 := sub_self a

@[simp] theorem seqDist_add_left (a k : Seq) : seqDist (a + k) a = k := add_sub_cancel_left a k

@[simp] theorem seqDist_add_right (a k : Seq) : seqDist a (a + k) = -k := by rw [seqDist, sub_add_cancel_left]

@[simp] theorem seqDist_sub_right (a k : Seq) : seqDist a (a - k) = k := sub_sub_cancel a k

theorem seqDist_add_add (a b k : Seq) : seqDist (a + k) (b + k) = seqDist a b := add_sub_add_right_eq_sub a b k

theorem seqDist_eq_iff (a b d : Seq) : seqDist a b = d ↔ a = b + d := sub_eq_iff_eq_add'

/-- R120: the two ways round the circle make up the whole of it. -/
theorem seqDist_toNat_add_swap {a b : Seq} (h : a ≠ b) : (seqDist a b).toNat + (seqDist b a).toNat = 4096 := by
  have hne : a.toNat ≠ b.toNat := fun he => h (BitVec.eq_of_toNat_eq he)
  have ha := a.isLt
  have hb := b.isLt
  rw [seqDist_toNat, seqDist_toNat]
  omega

/-- R120: the opposite point. -/
theorem seqDist_toNat_eq_half_iff (a b : Seq) : (seqDist a b).toNat = 2048 ↔ a = b + 2048 := by
  rw [← seqDist_eq_iff, ← BitVec.toNat_inj]
  rfl

/-- R120: opposite is opposite from either side. -/
theorem seqDist_toNat_eq_half_comm (a b : Seq) : (seqDist a b).toNat = 2048 ↔ (seqDist b a).toNat = 2048 := by
  by_cases h : a = b
  · rw [h]
  · have hsum := seqDist_toNat_add_swap h
    omega

/-! ### The tests -/

theorem seqOldeq_eq (ref i : Seq) : seqOldeq ref i = decide ((ref.toNat + 4096 - i.toNat) % 4096 ≤ 2048) := by
  rw [seqOldeq, seqDist_toNat]
  rfl

theorem seqPrecedes_eq (x y : Seq) :
    seqPrecedes x y = (decide (x ≠ y) && decide ((y.toNat + 4096 - x.toNat) % 4096 ≤ 2048)) := by
  rw [seqPrecedes, seqDist_toNat, bne, beq_eq_decide, decide_not]
  rfl

theorem seqWinopen_eq (nts lastAcked : Seq) :
    seqWinopen nts lastAcked = decide ((nts.toNat + 4096 - lastAcked.toNat) % 4096 < 2048) := by
  rw [seqWinopen, seqDist_toNat]
  rfl

/-- R123 by the distance `j` that an id lies behind. -/
theorem seqOldeq_sub (ref j : Seq) : seqOldeq ref (ref - j) = decide (j.toNat ≤ 2048) := by
  rw [seqOldeq, seqDist_sub_right]
  rfl

/-- R123 by the distance `j` that an id lies ahead. -/
theorem seqOldeq_add (ref j : Seq) : seqOldeq ref (ref + j) = decide ((-j).toNat ≤ 2048) := by
  rw [seqOldeq, seqDist_add_right]
  rfl

@[simp] theorem seqOldeq_self (ref : Seq) : seqOldeq ref ref = true := by
  rw [seqOldeq, seqDist_self]
  rfl

@[simp] theorem seqPrecedes_self (x : Seq) : seqPrecedes x x = false := by
  rw [seqPrecedes, bne_self_eq_false, Bool.false_and]

/-- R124: between two ids the order is R123's test. -/
theorem seqPrecedes_of_ne {x y : Seq} (h : x ≠ y) : seqPrecedes x y = seqOldeq y x := by
  rw [seqPrecedes, bne_iff_ne.mpr h, Bool.true_and, seqOldeq]

/-- R123, R124: old or equal is equal or earlier. -/
theorem seqOldeq_eq_or (ref i : Seq) : seqOldeq ref i = (i == ref || seqPrecedes i ref) := by
  by_cases h : i = ref
  · rw [h, seqOldeq_self, beq_self_eq_true, Bool.true_or]
  · rw [beq_false_of_ne h, Bool.false_or, seqPrecedes_of_ne h]

/-- R124: two ids that are neither equal nor opposite are ordered one way only. -/
theorem seqPrecedes_eq_not_swap {x y : Seq} (hne : x ≠ y) (hopp : y ≠ x + 2048) :
    seqPrecedes x y = !seqPrecedes y x := by
  have hsum := seqDist_toNat_add_swap hne
  have hhalf : (seqDist y x).toNat ≠ 2048 := fun h => hopp ((seqDist_toNat_eq_half_iff y x).mp h)
  rw [seqPrecedes_of_ne hne, seqPrecedes_of_ne hne.symm, seqOldeq, seqOldeq, ← decide_not, decide_eq_decide, Config.half]
  omega

/-- R124: opposite ids precede each other. -/
theorem seqPrecedes_opposite (x : Seq) : seqPrecedes x (x + 2048) = true ∧ seqPrecedes (x + 2048) x = true := by
  have hne : x ≠ x + 2048 := fun h => absurd (left_eq_add.mp h) (by decide)
  rw [seqPrecedes_of_ne hne, seqPrecedes_of_ne hne.symm, seqOldeq_add, seqOldeq, seqDist_add_left]
  decide

/-- R126 (d): the ids ahead of `ref`, up to the opposite point, are not old. -/
theorem seqOldeq_add_eq_false (ref : Seq) {j : Seq} (h1 : 1 ≤ j.toNat) (h2 : j.toNat ≤ 2047) :
    seqOldeq ref (ref + j) = false := by
  rw [seqOldeq_add, BitVec.toNat_neg, decide_eq_false_iff_not]
  omega

/-! ### The operations, R105: the answer changes and nothing else -/

theorem exec_seqDist (a b : Seq) (s : State) :
    exec (.seqDist a b) s = .next { s with ans := { s.ans with seqResult := seqDist a b } } := rfl

theorem exec_seqInc (a : Seq) (s : State) :
    exec (.seqInc a) s = .next { s with ans := { s.ans with seqResult := seqInc a } } := rfl

theorem exec_seqDec (a : Seq) (s : State) :
    exec (.seqDec a) s = .next { s with ans := { s.ans with seqResult := seqDec a } } := rfl

theorem exec_seqOldeq (ref i : Seq) (s : State) :
    exec (.seqOldeq ref i) s = .next { s with ans := { s.ans with testResult := seqOldeq ref i } } := rfl

theorem exec_seqPrecedes (x y : Seq) (s : State) :
    exec (.seqPrecedes x y) s = .next { s with ans := { s.ans with testResult := seqPrecedes x y } } := rfl

theorem exec_seqWinopen (nts lastAcked : Seq) (s : State) :
    exec (.seqWinopen nts lastAcked) s = .next { s with ans := { s.ans with testResult := seqWinopen nts lastAcked } } := rfl

/-! ### The statements -/

/-- Settles O1: the answers are the arithmetic results, and the corner cases follow from the two ways round the circle. -/
theorem sequenceArithmetic : Obligations.SequenceArithmetic := by
  refine ⟨fun a b s => ?dist, fun a s => ?inc, fun a s => ?dec, seqDist_self, fun a b h => seqDist_toNat_add_swap h,
    fun a b hne hhalf => ?below, seqDist_toNat_eq_half_comm, seqDist_add_left, by decide, by decide⟩
  case dist => rw [exec_seqDist, seqDist_eq_ofNat]
  case inc => rw [exec_seqInc, seqInc_eq_ofNat]
  case dec => rw [exec_seqDec, seqDec_eq_ofNat]
  case below =>
    have hsum := seqDist_toNat_add_swap hne
    omega

/-- Settles O2: the answers are the tests of the distance, and the corner cases follow from the distance an id lies behind or
ahead. -/
theorem sequenceTests : Obligations.SequenceTests := by
  refine ⟨fun ref i s => ?oldeq, fun x y s => ?precedes, fun nts lastAcked s => ?winopen, fun ref => ?corners,
    fun x => ⟨seqPrecedes_self x, seqPrecedes_opposite x⟩, fun x y => seqPrecedes_eq_not_swap, seqOldeq_eq_or,
    by decide, by decide⟩
  case oldeq => rw [exec_seqOldeq, seqOldeq_eq]
  case precedes => rw [exec_seqPrecedes, seqPrecedes_eq]
  case winopen => rw [exec_seqWinopen, seqWinopen_eq]
  case corners =>
    rw [seqOldeq_self, seqOldeq_sub, seqOldeq_sub, seqOldeq_add]
    decide

/-- Settles O3: (a), (c) and (d) by the distance an id lies behind or ahead, (b) by cancelling the common move, (e) by whether
the id is `nrs` and, if not, by the test. -/
theorem sequenceLaws : Obligations.SequenceLaws := by
  refine ⟨fun a => ⟨seqDist_add_left a 1, seqDist_add_right a 1⟩, seqDist_add_add, fun a => ?next, fun ref j => ⟨fun h => ?behind,
    seqOldeq_add_eq_false ref⟩, fun nrs i => ?classes⟩
  case next =>
    rw [seqOldeq, seqInc, seqDist_add_left]
    decide
  case behind =>
    rw [seqOldeq_sub, decide_eq_true_eq]
    omega
  case classes =>
    by_cases h : i = nrs
    · exact .inl ⟨h, fun hi => hi.1 h, h ▸ seqOldeq_self i⟩
    · cases ho : seqOldeq nrs i
      · exact .inr (.inr ⟨h, rfl⟩)
      · exact .inr (.inl ⟨h, rfl⟩)

end Sys2Proof.Machine
end

section
namespace Sys2Proof.Machine

/-! ## The retry buffer's operations, R140 to R152

Each operation of a tick with the link up, as the shared operation it is. -/

theorem exec_of_live {i : Instr} {e : State → State} {s : State} (hx : exec i s = happens (fun _ => true) e s)
    (hl : s.line.live = true) : exec i s = .next (e s) := hx.trans (happens_of _ e s hl rfl)

theorem exec_rbStore (id : Seq) (bytes : List Byte) (s : State) (hl : s.line.live = true) :
    exec (.rbStore id bytes) s = .next (s.storeFrame id bytes) :=
  exec_of_live (e := fun t => t.storeFrame id bytes) rfl hl

theorem exec_rbDelete (req : DelReq) (s : State) (hl : s.line.live = true) :
    exec (.rbDelete req) s = .next (s.serviceDeletes (delRequests req).1 (delRequests req).2) :=
  exec_of_live (e := fun t => t.serviceDeletes (delRequests req).1 (delRequests req).2) rfl hl

theorem exec_rbContains (id : Seq) (s : State) (hl : s.line.live = true) :
    exec (.rbContains id) s = .next { s with ans := { s.ans with qHit := (find s.cur.slots id).isSome } } :=
  exec_of_live (e := fun t => t.answer fun r => { r with qHit := (find t.cur.slots id).isSome }) rfl hl

theorem exec_rbCount (s : State) :
    exec .rbCount s =
      .next { s with ans := { s.ans with rbCount := s.rbCount, rbFull := s.rbFull, rbEmpty := s.rbEmpty } } := rfl

theorem exec_rbSend_start (id : Seq) (s : State) (hl : s.line.live = true) :
    exec (.rbSend (.start id)) s = .next (s.startSend id) :=
  exec_of_live (e := fun t => t.startSend id) rfl hl

theorem exec_rbSend_beat (s : State) (hl : s.line.live = true) (hb : s.cur.rpBusy = true) :
    exec (.rbSend .beat) s = .next s.sendBeat := happens_of (fun t => t.cur.rpBusy) State.sendBeat s hl hb

theorem exec_rbSendall (s : State) (hl : s.line.live = true) : exec .rbSendall s = .next s.passTick :=
  exec_of_live rfl hl

/-! ### Lookup and store, R70, R141 -/

theorem find_eq_none_iff (slots : List Slot) (i : Seq) : find slots i = none ↔ ¬ Held slots i := by
  rw [← find_isSome_iff, Bool.not_eq_true, Option.isSome_eq_false_iff, Option.isNone_iff_eq_none]

theorem find_isSome_eq_any (slots : List Slot) (i : Seq) :
    (find slots i).isSome = slots.any fun sl => sl.occ && sl.id == i := List.findIdx?_isSome

/-- `find` names the lowest slot that holds the id (log entry 17). -/
theorem find_of_lowest {slots : List Slot} {i : Seq} {k : Nat} {sl : Slot} (hk : slots[k]? = some sl)
    (ho : sl.occ = true) (hi : sl.id = i)
    (hlow : ∀ (j : Nat) (c : Slot), j < k → slots[j]? = some c → ¬ (c.occ = true ∧ c.id = i)) :
    find slots i = some k := by
  obtain ⟨hlt, rfl⟩ := List.getElem?_eq_some_iff.mp hk
  rw [find, List.findIdx?_eq_some_iff_getElem]
  refine ⟨hlt, by simp [ho, hi], fun j hj hp => hlow j _ hj (List.getElem?_eq_getElem (hj.trans hlt)) ?_⟩
  simpa using hp

theorem rbFull_iff (s : State) : s.rbFull = true ↔ occCount s.cur.slots = s.par.nSlots := by
  rw [State.rbFull, beq_iff_eq, State.rbCount]

theorem storeFrame_of_held_or_full {s : State} {id : Seq} (bytes : List Byte)
    (h : Held s.cur.slots id ∨ occCount s.cur.slots = s.par.nSlots) : s.storeFrame id bytes = s := by
  rw [← find_isSome_iff, ← rbFull_iff, ← Bool.or_eq_true] at h
  exact if_pos h

theorem storeFrame_of_room {s : State} {id : Seq} {k : Nat} (bytes : List Byte) (hh : ¬ Held s.cur.slots id)
    (hf : occCount s.cur.slots ≠ s.par.nSlots) (hk : firstFree s.cur.slots = some k) :
    s.storeFrame id bytes =
      s.write fun r => { r with slots := r.slots.set k { occ := true, id := id, bytes := bytes } } := by
  have hno : ¬ ((find s.cur.slots id).isSome || s.rbFull) = true := by
    rw [Bool.or_eq_true, find_isSome_iff, rbFull_iff]
    exact not_or.mpr ⟨hh, hf⟩
  rw [State.storeFrame, if_neg hno, hk]

/-- Settles O4: a store that does not fail finds a free slot, since fewer than N are occupied. -/
theorem storeTakesFirstFreeSlot : Obligations.StoreTakesFirstFreeSlot := by
  intro id bytes s hl hlen
  refine ⟨fun h => ?fails, fun hh hf => ?stores⟩
  case fails => rw [exec_rbStore id bytes s hl, storeFrame_of_held_or_full bytes h]
  case stores =>
    have hlt : occCount s.cur.slots < s.cur.slots.length :=
      lt_of_le_of_ne List.countP_le_length (hlen ▸ hf)
    obtain ⟨k, hk⟩ := firstFree_isSome s.cur.slots hlt
    obtain ⟨hfree, hbefore⟩ := firstFree_some _ _ hk
    have hheld : ¬ Held s.cur.slots id := fun ⟨sl, hm, h⟩ => hh sl hm h
    refine ⟨k, hfree, hbefore, ?_⟩
    rw [exec_rbStore id bytes s hl, storeFrame_of_room bytes hheld hf hk]
    rfl

/-! ### Membership and occupancy, R144, R145 -/

/-- Settles O7. -/
theorem membershipAndOccupancy : Obligations.MembershipAndOccupancy := by
  refine ⟨fun id s hl => ?contains, fun s => ?count⟩
  case contains => rw [exec_rbContains id s hl, find_isSome_eq_any]
  case count =>
    rw [exec_rbCount, State.rbFull, State.rbEmpty, State.rbCount, occCount, List.countP_eq_length_filter, beq_eq_decide,
      beq_eq_decide]

/-! ### Send, R150, R151 -/

theorem startSend_of_absent {s : State} {id : Seq} (h : ¬ Held s.cur.slots id) : s.startSend id = s := by
  rw [State.startSend, (find_eq_none_iff _ _).mpr h]

theorem startSend_of_find {s : State} {id : Seq} {k : Nat} {sl : Slot} (hf : find s.cur.slots id = some k)
    (hk : s.cur.slots[k]? = some sl) :
    s.startSend id = s.write fun r => { r with rpBytes := sl.bytes, rpPos := 0, rpBusy := true } := by
  have hget : s.cur.slots.getD k Slot.free = sl := by rw [List.getD_eq_getElem?_getD, hk, Option.getD_some]
  rw [State.startSend, hf, ← hget]

/-- R151: inside the frame the byte due is the byte at `rp_pos`. -/
theorem replayByte_of_getElem? {s : State} {b : Byte} (h : s.cur.rpBytes[s.cur.rpPos]? = some b) : s.replayByte = b := by
  rw [State.replayByte, List.getD_eq_getElem?_getD, h, Option.getD_some]

/-- R151: inside the frame the byte due is the last one iff it stands at the end. -/
theorem lastBeat_of_getElem? {s : State} {b : Byte} (h : s.cur.rpBytes[s.cur.rpPos]? = some b) :
    s.lastBeat = decide (s.cur.rpPos = s.cur.rpBytes.length - 1) := by
  obtain ⟨hlt, -⟩ := List.getElem?_eq_some_iff.mp h
  rw [State.lastBeat, beq_eq_decide, decide_eq_decide]
  omega

/-- Settles O8: the start by whether the id is held, the beat by the three cases of `sendBeat_cases`. -/
theorem sendStreamsTheStoredFrame : Obligations.SendStreamsTheStoredFrame := by
  refine ⟨fun id s hl => ⟨fun hno => ?absent, fun k sl hk ho hi hlow => ?copied⟩, fun b s hl hb hbyte => ?beat⟩
  case absent => rw [exec_rbSend_start id s hl, startSend_of_absent fun ⟨sl, hm, h⟩ => hno sl hm h]
  case copied =>
    rw [exec_rbSend_start id s hl, startSend_of_find (find_of_lowest hk ho hi hlow) hk]
    rfl
  case beat =>
    have hcases := sendBeat_cases s
    rw [replayByte_of_getElem? hbyte, lastBeat_of_getElem? hbyte, beq_eq_decide] at hcases
    rw [exec_rbSend_beat s hl hb]
    intro o
    rcases hcases with ⟨ht, h⟩ | ⟨ht, hlast, h⟩ | ⟨ht, hlast, h⟩ <;> rw [h, ht]
    · exact ⟨fun _ => rfl, fun hc => absurd hc Bool.false_ne_true, fun hc => absurd hc Bool.false_ne_true⟩
    · exact ⟨fun hc => absurd hc Bool.false_ne_true.symm, fun _ _ => rfl, fun _ hc => absurd (of_decide_eq_true hlast) hc⟩
    · exact ⟨fun hc => absurd hc Bool.false_ne_true.symm, fun _ hc => absurd hc (of_decide_eq_false hlast), fun _ _ => rfl⟩

end Sys2Proof.Machine
end

section
namespace Sys2Proof.Machine

/-! ### Deletes, R143, R146 -/

/-- R143: `occ` is cleared in each slot of `base`, the slots as written so far in the tick, that `find` names for one of `ids`
among the start-of-tick `slots`; `freeSlots` is the case of a `base` not yet written. -/
def freeFound (slots base : List Slot) (ids : List Seq) : List Slot :=
  base.mapIdx fun k sl => if ids.any fun i => find slots i == some k then { sl with occ := false } else sl

@[simp] theorem freeFound_nil (slots base : List Slot) : freeFound slots base [] = base := by
  apply List.ext_getElem?
  intro k
  simp [freeFound]

theorem freeFound_congr (slots base : List Slot) {a b : List Seq} (h : ∀ i, i ∈ a ↔ i ∈ b) :
    freeFound slots base a = freeFound slots base b := by
  have hany : ∀ k, (a.any fun i => find slots i == some k) = b.any fun i => find slots i == some k := fun k => by
    rw [Bool.eq_iff_iff, List.any_eq_true, List.any_eq_true]
    simp only [h]
  simp only [freeFound, hany]

theorem freeFound_append (slots base : List Slot) (a b : List Seq) :
    freeFound slots base (a ++ b) = freeFound slots (freeFound slots base a) b := by
  simp only [freeFound, List.mapIdx_mapIdx]
  congr 1
  funext k sl
  simp only [List.any_append, Function.comp_apply]
  cases a.any fun i => find slots i == some k <;> simp

/-- With distinct ids a slot is cleared iff it was occupied at the start of the tick and held one of the ids. -/
theorem freeFound_getElem? {slots : List Slot} (hd : DistinctIds slots) (base : List Slot) (ids : List Seq) (k : Nat) :
    (freeFound slots base ids)[k]? =
      if slots[k]?.any (fun c => c.occ && decide (c.id ∈ ids)) then base[k]?.map fun c => { c with occ := false }
      else base[k]? := by
  have hany : (ids.any fun i => find slots i == some k) = slots[k]?.any fun c => c.occ && decide (c.id ∈ ids) := by
    rw [Bool.eq_iff_iff, List.any_eq_true]
    simp only [beq_iff_eq]
    rcases lt_or_ge k slots.length with hk | hk
    · simp only [find_eq_some_iff slots hd k hk, List.getElem?_eq_getElem hk, Option.any_some, Bool.and_eq_true,
        decide_eq_true_eq]
      exact ⟨fun ⟨i, hi, ho, he⟩ => ⟨ho, he ▸ hi⟩, fun ⟨ho, hi⟩ => ⟨_, hi, ho, rfl⟩⟩
    · have hno : ∀ i, find slots i ≠ some k := fun i hf => by
        obtain ⟨sl, hs, -⟩ := find_some _ _ _ hf
        rw [List.getElem?_eq_none hk] at hs
        cases hs
      simp [hno, List.getElem?_eq_none hk]
  rw [freeFound, List.getElem?_mapIdx, hany]
  cases slots[k]?.any fun c => c.occ && decide (c.id ∈ ids) <;> simp

theorem freeFound_singleton_of_none {slots : List Slot} {i : Seq} (h : find slots i = none) (base : List Slot) :
    freeFound slots base [i] = base := by
  apply List.ext_getElem?
  intro j
  simp [freeFound, h]

theorem freeFound_singleton_of_some {slots : List Slot} {i : Seq} {k : Nat} (h : find slots i = some k) (base : List Slot) :
    freeFound slots base [i] = base.modify k fun sl => { sl with occ := false } := by
  apply List.ext_getElem?
  intro j
  rw [List.getElem?_modify]
  rcases eq_or_ne k j with rfl | hne
  · simp [freeFound, h]
  · simp [freeFound, h, hne]

theorem clearSlot_eq (s : State) (i : Seq) :
    s.clearSlot i = { s with nxt := { s.nxt with slots := freeFound s.cur.slots s.nxt.slots [i] } } := by
  rcases clearSlot_cases s i with ⟨hf, h⟩ | ⟨k, hf, h⟩
  · rw [h, freeFound_singleton_of_none hf]
  · rw [h, freeFound_singleton_of_some hf]
    rfl

/-- R146: a request for an id that the list names is dropped. -/
theorem serviceDelete_of_mem {s : State} {i : Seq} (c : DelCause) (h : i ∈ s.dels.map Prod.fst) :
    s.serviceDelete c i = s := by
  refine if_pos (List.any_eq_true.mpr ?_)
  obtain ⟨d, hd, rfl⟩ := List.mem_map.mp h
  exact ⟨d, hd, beq_self_eq_true _⟩

/-- R146: a request for an id that the list does not name is serviced and joins the list. -/
theorem serviceDelete_of_not_mem {s : State} {i : Seq} (c : DelCause) (h : i ∉ s.dels.map Prod.fst) :
    s.serviceDelete c i =
      { s with
          nxt := { s.nxt with slots := freeFound s.cur.slots s.nxt.slots [i] }
          dels := s.dels ++ [(i, c)] } := by
  have hany : ¬ (s.dels.any fun d => d.1 == i) = true := fun ha => by
    obtain ⟨d, hd, he⟩ := List.any_eq_true.mp ha
    exact h (List.mem_map.mpr ⟨d, hd, eq_of_beq he⟩)
  rw [State.serviceDelete, if_neg hany, clearSlot_eq]
  rfl

/-- `t` is `s` with the frames of `ids` deleted, whatever requester each delete is recorded for. -/
structure State.HasDeleted (s t : State) (ids : List Seq) : Prop where
  cur   : t.cur = s.cur
  slots : t.nxt.slots = freeFound s.cur.slots s.nxt.slots ids
  named : ∀ i, i ∈ t.dels.map Prod.fst ↔ i ∈ ids

theorem hasDeleted_nil {s : State} (hd : s.dels = []) : s.HasDeleted s [] :=
  ⟨rfl, (freeFound_nil _ _).symm, by simp [hd]⟩

theorem State.HasDeleted.serviceDelete {s t : State} {ids : List Seq} (h : s.HasDeleted t ids) (c : DelCause) (i : Seq) :
    s.HasDeleted (t.serviceDelete c i) (ids ++ [i]) := by
  by_cases hi : i ∈ t.dels.map Prod.fst
  · have hmem : ∀ j, j ∈ ids ↔ j ∈ ids ++ [i] := fun j => by
      rw [List.mem_append, List.mem_singleton]
      exact ⟨.inl, Or.rec id fun he => he ▸ (h.named i).mp hi⟩
    rw [serviceDelete_of_mem c hi]
    exact ⟨h.cur, h.slots.trans (freeFound_congr _ _ hmem), fun j => (h.named j).trans (hmem j)⟩
  · rw [serviceDelete_of_not_mem c hi]
    refine ⟨h.cur, ?_, fun j => ?_⟩
    · rw [freeFound_append, ← h.slots, ← h.cur]
    · rw [List.map_append, List.mem_append, h.named, List.mem_append]
      rfl

theorem State.HasDeleted.serviceDeletes {s t : State} {ids : List Seq} (h : s.HasDeleted t ids) (c : DelCause)
    (js : List Seq) : s.HasDeleted (t.serviceDeletes c js) (ids ++ js) := by
  induction js generalizing t ids with
  | nil => rwa [List.append_nil]
  | cons j js ih =>
    rw [List.append_cons]
    exact ih (h.serviceDelete c j)

/-- R146: requests for ids without repetition, none of them named yet, all join the list. -/
theorem serviceDeletes_dels (c : DelCause) (ids : List Seq) (s : State) (hn : ids.Nodup)
    (hf : ∀ i ∈ ids, i ∉ s.dels.map Prod.fst) :
    (s.serviceDeletes c ids).dels = s.dels ++ ids.map fun i => (i, c) := by
  induction ids generalizing s with
  | nil => exact (List.append_nil _).symm
  | cons i is ih =>
    obtain ⟨hi, his⟩ := List.nodup_cons.mp hn
    have hserve := serviceDelete_of_not_mem c (hf i List.mem_cons_self)
    change ((s.serviceDelete c i).serviceDeletes c is).dels = _
    have hfresh : ∀ j ∈ is, j ∉ (s.serviceDelete c i).dels.map Prod.fst := fun j hj hmem => by
      rw [hserve, List.map_append, List.mem_append, List.map_singleton, List.mem_singleton] at hmem
      rcases hmem with hmem | rfl
      · exact hf j (List.mem_cons_of_mem i hj) hmem
      · exact hi hj
    rw [ih _ his hfresh, hserve, List.map_cons, List.append_assoc, List.singleton_append]

/-- What the first deletes of a tick leave of a state. -/
theorem serviceDeletes_eq (c : DelCause) {ids : List Seq} {s : State} (hd : s.dels = []) (hn : ids.Nodup) :
    s.serviceDeletes c ids =
      { s with
          nxt := { s.nxt with slots := freeFound s.cur.slots s.nxt.slots ids }
          dels := ids.map fun i => (i, c) } := by
  have hslots := ((hasDeleted_nil hd).serviceDeletes c ids).slots
  have hdels := serviceDeletes_dels c ids s hn (by simp [hd])
  rw [hd, List.nil_append] at hdels
  obtain ⟨sl, ds, h⟩ := serviceDeletes_frame c ids s
  rw [h] at hslots hdels ⊢
  rw [← hdels, ← show sl = freeFound s.cur.slots s.nxt.slots ids from hslots]

/-! ### The ids of port A, R101 -/

theorem mem_seqRange (lo hi i : Seq) : i ∈ seqRange lo hi ↔ (i - lo).toNat ≤ (hi - lo).toNat := by
  simp only [seqRange, seqDist, List.mem_map, List.mem_range, Nat.lt_succ_iff]
  constructor
  · rintro ⟨k, hk, rfl⟩
    rw [add_sub_cancel_left, BitVec.toNat_ofNat]
    exact (Nat.mod_le _ _).trans hk
  · intro h
    exact ⟨_, h, by rw [BitVec.ofNat_toNat, BitVec.setWidth_eq, add_sub_cancel]⟩

theorem seqRange_nodup (lo hi : Seq) : (seqRange lo hi).Nodup := by
  rw [seqRange, List.nodup_map_iff_inj_on List.nodup_range]
  intro j hj k hk h
  have hlt := (seqDist hi lo).isLt
  rw [List.mem_range] at hj hk
  have h' := congrArg BitVec.toNat (add_left_cancel h)
  rwa [BitVec.toNat_ofNat, BitVec.toNat_ofNat, Nat.mod_eq_of_lt (by omega), Nat.mod_eq_of_lt (by omega)] at h'

theorem seqRange_map {α : Type} (lo hi : Seq) (f : Seq → α) :
    (seqRange lo hi).map f = (List.range ((hi - lo).toNat + 1)).map fun k => f (lo + BitVec.ofNat 12 k) := by
  rw [seqRange, List.map_map]
  rfl

/-- Settles O5: both ports delete ids without repetition from an empty list. -/
theorem deleteClearsOccupied : Obligations.DeleteClearsOccupied := by
  refine fun s hl hd hdist => ⟨fun id => ⟨freeFound s.cur.slots s.nxt.slots [id], ?listB, fun k => ?slotsB⟩,
    fun lo hi => ⟨freeFound s.cur.slots s.nxt.slots (seqRange lo hi), ?listA, fun k => ?slotsA⟩⟩
  case listB =>
    rw [exec_rbDelete _ s hl, delRequests, serviceDeletes_eq _ hd (List.nodup_singleton id)]
    rfl
  case slotsB =>
    rw [freeFound_getElem? hdist]
    simp only [List.mem_singleton, beq_eq_decide]
  case listA => rw [exec_rbDelete _ s hl, delRequests, serviceDeletes_eq _ hd (seqRange_nodup lo hi), seqRange_map]
  case slotsA =>
    rw [freeFound_getElem? hdist]
    simp only [mem_seqRange]

/-! ### Arbitration of deletes, R146 -/

/-- The store and the send port select no delete. -/
theorem rbDelete_not_mem_store_or_send (s : State) (r : DelReq) :
    .rbDelete r ∉ s.decoded (.store s.req.store s.req.storeBytes) ++ s.decoded (.send s.req.send) := by
  rw [List.mem_append, mem_decoded, mem_decoded, decode, decode]
  rintro (h | h) <;> split at h <;> cases h

theorem requested_of_both_deletes {s : State} {lo hi i : Seq} (hA : s.req.delA = rangeWord true lo hi)
    (hB : s.req.delB = reqWord true i) :
    s.requested = .rbDelete (.portA lo hi) :: .rbDelete (.portB i) ::
      (s.decoded (.store s.req.store s.req.storeBytes) ++ s.decoded (.send s.req.send)) := by
  have hdA : s.decoded (.delA s.req.delA) = [.rbDelete (.portA lo hi)] := by
    rw [hA, State.decoded, decode_delA_rangeWord, Decoded.toList]
  have hdB : s.decoded (.delB s.req.delB) = [.rbDelete (.portB i)] := by
    rw [hB, State.decoded, decode_delB_reqWord, Decoded.toList]
  rw [State.requested, hdA, hdB]
  rfl

theorem runAll_two_deletes (a b : DelReq) {s : State} (hl : s.line.live = true) :
    runAll [.rbDelete a, .rbDelete b] s =
      .next ((s.serviceDeletes (delRequests a).1 (delRequests a).2).serviceDeletes (delRequests b).1 (delRequests b).2) := by
  have hl' := (sameTick_serviceDeletes s (delRequests a).1 (delRequests a).2).live hl
  rw [runAll_cons, exec_rbDelete a s hl, andThen_next, runAll_singleton, exec_rbDelete b _ hl']

/-- The list after port A and then port B: the id of port B is recorded only if port A does not name it. -/
theorem serviceDeletes_range_then_one_dels {s : State} (lo hi i : Seq) (hd : s.dels = []) :
    ((s.serviceDeletes .acknowledgement (seqRange lo hi)).serviceDelete .nullification i).dels =
      ((seqRange lo hi).map fun j => (j, DelCause.acknowledgement)) ++
        (if (i - lo).toNat ≤ (hi - lo).toNat then [] else [(i, .nullification)]) := by
  have hfirst := serviceDeletes_eq .acknowledgement hd (seqRange_nodup lo hi)
  have hnamed := ((hasDeleted_nil hd).serviceDeletes .acknowledgement (seqRange lo hi)).named i
  rw [List.nil_append, mem_seqRange] at hnamed
  split
  · rw [serviceDelete_of_mem _ (hnamed.mpr ‹_›), List.append_nil, hfirst]
  · rw [serviceDelete_of_not_mem _ (mt hnamed.mp ‹_›), hfirst]

/-- Settles O6: the requests as the ports are decoded, a named id by `serviceDelete_of_mem`, and either order frees the slots
of the same set of ids. -/
theorem deleteArbitration : Obligations.DeleteArbitration := by
  refine ⟨fun s lo hi i hA hB => ⟨_, requested_of_both_deletes hA hB, rbDelete_not_mem_store_or_send s⟩,
    fun s i c hmem => ?dropped, fun s lo hi i hl hd =>
      ⟨_, _, runAll_two_deletes _ _ hl, runAll_two_deletes _ _ hl, ?recorded, ?slots⟩⟩
  case dropped =>
    have hnamed : i ∈ s.dels.map Prod.fst := List.mem_map.mpr ⟨_, hmem, rfl⟩
    cases hl : s.line.live
    · exact happens_not (fun _ => true) (fun t => t.serviceDeletes .nullification [i]) s (by rw [hl, Bool.false_and])
    · rw [exec_rbDelete _ s hl]
      exact congrArg _ (serviceDelete_of_mem .nullification hnamed)
  case recorded =>
    rw [← seqRange_map lo hi fun j => (j, DelCause.acknowledgement)]
    exact serviceDeletes_range_then_one_dels lo hi i hd
  case slots =>
    have h0 := hasDeleted_nil hd
    have hAB := (h0.serviceDeletes .acknowledgement (seqRange lo hi)).serviceDeletes .nullification [i]
    have hBA := (h0.serviceDeletes .nullification [i]).serviceDeletes .acknowledgement (seqRange lo hi)
    exact hBA.slots.trans ((freeFound_congr _ _ fun j => by simp [or_comm]).trans hAB.slots.symm)

end Sys2Proof.Machine
end

section
namespace Sys2Proof.Machine

/-! ### Send all, R152, R200 -/

theorem sendBeat_req (s : State) : s.sendBeat.req = s.req := by
  obtain ⟨-, h⟩ | ⟨-, -, h⟩ | ⟨-, -, h⟩ := sendBeat_cases s <;> (rw [h]; rfl)

theorem startSend_req (s : State) (id : Seq) : (s.startSend id).req = s.req := by
  obtain ⟨-, h⟩ | ⟨k, -, h⟩ := startSend_cases s id
  · rw [h]
  · rw [h]
    rfl

theorem rbEmpty_eq_not_pos (s : State) : s.rbEmpty = !decide (0 < s.rbCount) := by
  rw [State.rbEmpty, beq_eq_decide, ← decide_not, decide_eq_decide]
  omega

theorem passBetween_of_waiting {s : State} (hw : s.replayWaiting = true) (he : s.rbEmpty = false)
    (hp : s.cur.rpPass = true) : s.passBetween = true := by
  rw [rbEmpty_eq_not_pos, Bool.not_eq_false'] at he
  rw [State.passBetween, hw, hp, he]
  rfl

/-- `t` is what the replay controller's operations of the tick leave of `s`, with no request raised. -/
def State.PassLeaves (s t : State) : Prop := runAll s.replayOps s = .next t ∧ s.passTick = t ∧ t.req = s.req

/-- The pass does nothing in the tick. -/
theorem passLeaves_self {s : State} (ho : s.replayOps = []) (hp : s.passTick = s) : s.PassLeaves s :=
  ⟨by rw [ho]; rfl, hp, rfl⟩

/-- The pass does one operation in the tick. -/
theorem passLeaves_of_exec {s t : State} {i : Instr} (ho : s.replayOps = [i]) (hx : exec i s = .next t)
    (hp : s.passTick = t) (hq : t.req = s.req) : s.PassLeaves t :=
  ⟨by rw [ho, runAll_singleton, hx], hp, hq⟩

theorem passLeaves_idle {s : State} (hl : s.line.live = true) (hd : s.reqDrop = false) (hr : s.cur.rcState = .idle) :
    ∃ t, s.PassLeaves t := by
  cases ha : s.passStart
  · exact ⟨s, passLeaves_self (by simp [State.replayOps, hr, ha, hd]) (by simp [State.passTick, hr, ha])⟩
  · have hx : exec .txReplayEnter s = .next s.enterReplaying :=
      happens_of (fun t => t.cur.rcState == .idle && t.passStart) _ s hl (by rw [hr, ha]; rfl)
    exact ⟨_, passLeaves_of_exec (by simp [State.replayOps, hr, ha]) hx (by simp [State.passTick, hr, ha]) rfl⟩

theorem passLeaves_busy {s : State} (hl : s.line.live = true) (hr : s.cur.rcState = .replaying)
    (hb : s.cur.rpBusy = true) : ∃ t, s.PassLeaves t := by
  have hx := exec_rbSend_beat s hl hb
  cases hn : s.lastBeat && s.line.txReady
  · exact ⟨_, passLeaves_of_exec (by simp [State.replayOps, hr, hb, hn]) hx (by simp [State.passTick, hr, hb, hn])
      (sendBeat_req s)⟩
  · have htick := sameTick_sendBeat s
    have hline : s.sendBeat.line = s.line := congrArg (fun l => l.headD Line.idle) htick.inputs
    have hcond : (s.sendBeat.cur.rpBusy && s.sendBeat.lastBeat && s.sendBeat.line.txReady) = true := by
      rw [State.lastBeat, htick.cur, hline, hb, Bool.true_and]
      exact hn
    have hnext : exec .txReplayNext s.sendBeat = .next s.sendBeat.advanceCursor :=
      happens_of (fun t => t.cur.rpBusy && t.lastBeat && t.line.txReady) _ _ (htick.live hl) hcond
    have hops : s.replayOps = [.rbSend .beat, .txReplayNext] := by simp [State.replayOps, hr, hb, hn]
    refine ⟨s.sendBeat.advanceCursor, ?_, by simp [State.passTick, hr, hb, hn], sendBeat_req s⟩
    rw [hops, runAll_cons, hx, andThen_next, runAll_singleton, hnext]

theorem passLeaves_waiting {s : State} (hl : s.line.live = true) (hs : s.passSends = false)
    (hr : s.cur.rcState = .replaying) (hb : s.cur.rpBusy = false) : ∃ t, s.PassLeaves t := by
  have hw : s.replayWaiting = true := by rw [State.replayWaiting, hr, hb]; rfl
  cases he : s.rbEmpty
  case true =>
    have hx : exec .txReplayExit s = .next s.exitReplaying :=
      happens_of (fun t => t.replayWaiting && t.rbEmpty) _ s hl (by rw [hw, he]; rfl)
    exact ⟨_, passLeaves_of_exec (by simp [State.replayOps, hr, hb, he]) hx (by simp [State.passTick, hr, hb, he]) rfl⟩
  case false =>
    cases hp : s.cur.rpPass
    case false =>
      cases ha : s.passStart
      · exact ⟨s, passLeaves_self (by simp [State.replayOps, hr, hb, he, hp, ha])
          (by simp [State.passTick, hr, hb, he, hp, ha])⟩
      · have hx : exec .txReplayAgain s = .next s.startPass :=
          happens_of (fun t => t.cur.rcState == .replaying && t.passStart) _ s hl (by rw [hr, ha]; rfl)
        exact ⟨_, passLeaves_of_exec (by simp [State.replayOps, hr, hb, he, hp, ha]) hx
          (by simp [State.passTick, hr, hb, he, hp, ha]) rfl⟩
    case true =>
      have hbt := passBetween_of_waiting hw he hp
      by_cases hi : s.cur.rpId = s.cur.nts
      · have hx : exec .txReplayPassend s = .next (s.write fun r => { r with rpPass := false }) :=
          happens_of (fun t => t.passBetween && t.cur.rpId == t.cur.nts)
            (fun t => t.write fun r => { r with rpPass := false }) s hl (by rw [hbt, hi, beq_self_eq_true]; rfl)
        exact ⟨_, passLeaves_of_exec (by simp [State.replayOps, hr, hb, he, hp, hi]) hx
          (by simp [State.passTick, hr, hb, he, hp, hi]) rfl⟩
      · have hne : (s.cur.rpId != s.cur.nts) = true := bne_iff_ne.mpr hi
        have hf : find s.cur.slots s.cur.rpId = none := by
          simpa [State.passSends, hbt, hi] using hs
        have hx : exec .txReplaySkip s = .next s.advanceCursor :=
          happens_of (fun t => t.passBetween && t.cur.rpId != t.cur.nts && (find t.cur.slots t.cur.rpId).isNone) _ s hl
            (by rw [hbt, hne, hf]; rfl)
        exact ⟨_, passLeaves_of_exec (by simp [State.replayOps, hr, hb, he, hp, hi, hf]) hx
          (by simp [State.passTick, hr, hb, he, hp, hi, hf]) rfl⟩

/-- Whatever the pass does but the send, its operations leave the state of RB.SENDALL and raise no request. -/
theorem passLeaves_of_no_send {s : State} (hl : s.line.live = true) (hd : s.reqDrop = false) (hs : s.passSends = false) :
    ∃ t, s.PassLeaves t := by
  cases hr : s.cur.rcState
  · exact passLeaves_idle hl hd hr
  · cases hb : s.cur.rpBusy
    · exact passLeaves_waiting hl hs hr hb
    · exact passLeaves_busy hl hr hb

/-- R196: the send of a pass: the operations ask for it, RB.SENDALL does it. -/
theorem replayOps_of_passSends {s : State} (hs : s.passSends = true) :
    s.replayOps = [.txReplaySend] ∧ s.passTick = s.startSend s.cur.rpId := by
  simp only [State.passSends, State.passBetween, State.replayWaiting, Bool.and_eq_true, beq_iff_eq, bne_iff_ne,
    Bool.not_eq_true'] at hs
  obtain ⟨⟨⟨⟨⟨hr, hb⟩, hp⟩, hn⟩, hi⟩, hf⟩ := hs
  have he : s.rbEmpty = false := by rw [rbEmpty_eq_not_pos, hn]; rfl
  exact ⟨by simp [State.replayOps, hr, hb, he, hp, hi, hf], by simp [State.passTick, hr, hb, he, hp, hi, hf]⟩

theorem runAll_send_of_reqWord {s : State} {id : Seq} (hl : s.line.live = true) (hq : s.req.send = reqWord true id) :
    runAll (s.decoded (.send s.req.send)) s = .next (s.startSend id) := by
  rw [hq, State.decoded, decode_send_reqWord, Decoded.toList, runAll_singleton, exec_rbSend_start id s hl]

theorem runAll_send_of_zero {s : State} (hq : s.req.send = 0) : runAll (s.decoded (.send s.req.send)) s = .next s := by
  rw [hq]
  rfl

/-- A send does not look at the request ports. -/
theorem startSend_request (s : State) (f : RbqPorts → RbqPorts) (id : Seq) :
    (s.request f).startSend id = (s.startSend id).request f := by
  obtain ⟨hf, h⟩ | ⟨k, hf, h⟩ := startSend_cases s id
  · rw [h, State.startSend, request_cur, hf]
  · rw [h, State.startSend, request_cur, hf]
    rfl

/-- Settles O9: where the pass sends, the request is raised and serviced; everywhere else the operations leave no request. -/
theorem sendAllIsThePass : Obligations.SendAllIsThePass := by
  intro s hl hd hq
  rw [exec_rbSendall s hl]
  cases hs : s.passSends
  case false =>
    obtain ⟨t, hrun, hp, hreq⟩ := passLeaves_of_no_send hl hd hs
    exact ⟨t, t, hrun, runAll_send_of_zero (hreq ▸ hq), by rw [hp, ← hreq]⟩
  case true =>
    obtain ⟨hops, hp⟩ := replayOps_of_passSends hs
    have hcond : (s.passBetween && s.cur.rpId != s.cur.nts && (find s.cur.slots s.cur.rpId).isSome) = true := hs
    have hx : exec .txReplaySend s = .next (s.request fun q => { q with send := reqWord true s.cur.rpId }) :=
      happens_of (fun t => t.passBetween && t.cur.rpId != t.cur.nts && (find t.cur.slots t.cur.rpId).isSome)
        (fun t => t.request fun q => { q with send := reqWord true t.cur.rpId }) s hl hcond
    have hrun : runAll s.replayOps s = .next (s.request fun q => { q with send := reqWord true s.cur.rpId }) := by
      rw [hops, runAll_singleton, hx]
    refine ⟨_, _, hrun, runAll_send_of_reqWord hl rfl, ?_⟩
    rw [hp, startSend_request, ← startSend_req s s.cur.rpId]
    rfl

end Sys2Proof.Machine
end

section
namespace Sys2Proof.Machine

/-! ### The slots after a tick, R148 -/

section Slots
variable {s : State} (h : s.Inv)
include h

/-- R205: the ids an effective ACK releases are those of `unacked` up to the one it names. -/
theorem State.Inv.ackedIds_eq (ha : s.ackEffective = true) :
    s.ackedIds = s.cur.unacked.take (s.cur.unacked.idxOf (ctlWordId s.line.cw) + 1) := by
  obtain ⟨m, hm, hk, hids, -⟩ := h.kept_of_ack
  have hmem : ctlWordId s.line.cw ∈ s.cur.unacked := by
    simp only [State.ackEffective, State.ackEff, Bool.and_eq_true, List.contains_iff_mem] at ha
    exact ha.2
  have hlt := List.idxOf_lt_length_of_mem hmem
  have hlen := congrArg List.length hk
  rw [State.unackedKept, if_pos ha, List.length_drop, idsBefore_length] at hlen
  rw [hids]
  congr 1
  omega

/-- R147: port B names no id that a slot holds. -/
theorem State.Inv.id_not_mem_abortedIds {sl : Slot} (hm : sl ∈ s.cur.slots) (ho : sl.occ = true) :
    sl.id ∉ s.abortedIds := by
  have hmem : sl.id ∈ s.cur.unacked := (held_iff_of_consistent h.consistent sl.id).mp ⟨sl, hm, ho, rfl⟩
  unfold State.abortedIds
  split
  · rw [List.mem_singleton]
    exact fun he => h.nts_not_mem (he ▸ hmem)
  · exact List.not_mem_nil

/-- R205, R147: an occupied slot is freed iff an effective ACK releases its id. -/
theorem State.Inv.freed_of_occ {sl : Slot} (hm : sl ∈ s.cur.slots) (ho : sl.occ = true) :
    sl.freed (s.ackedIds ++ s.abortedIds) =
      if s.ackEffective = true ∧ sl.id ∈ s.cur.unacked.take (s.cur.unacked.idxOf (ctlWordId s.line.cw) + 1)
      then { sl with occ := false } else sl := by
  have hiff : (sl.occ && (s.ackedIds ++ s.abortedIds).contains sl.id) = true ↔
      s.ackEffective = true ∧ sl.id ∈ s.cur.unacked.take (s.cur.unacked.idxOf (ctlWordId s.line.cw) + 1) := by
    rw [ho, Bool.true_and, List.contains_iff_mem, List.mem_append, or_iff_left (h.id_not_mem_abortedIds hm ho)]
    cases ha : s.ackEffective
    · simp [State.ackedIds, ha]
    · simp [h.ackedIds_eq ha]
  exact if_congr hiff rfl rfl

/-- R148: the slots between the deletes and the store. -/
theorem State.Inv.freeSlots_getElem? {k : Nat} {sl : Slot} (hk : s.cur.slots[k]? = some sl) :
    (freeSlots s.cur.slots (s.ackedIds ++ s.abortedIds))[k]? = some (sl.freed (s.ackedIds ++ s.abortedIds)) := by
  rw [h.freeSlots_eq, List.getElem?_map, hk, Option.map_some]

/-- R141, R180: the slot a completed frame takes is free, and every lower one is occupied. -/
theorem State.Inv.slotTaken_eq_some_iff {k : Nat} {sl : Slot} (hk : s.cur.slots[k]? = some sl) (ho : sl.occ = false) :
    s.slotTaken = some k ↔ s.completes = true ∧ ∀ c ∈ s.cur.slots.take k, c.occ = true := by
  rcases h.slotTaken_eq with ⟨hc, ht⟩ | ⟨j, hj, hc, ht, hfree⟩
  · simp [hc, ht]
  · have hfirst : firstFree s.cur.slots = some j := by
      unfold State.slotTaken at ht
      split at ht
      · exact ht
      · cases ht
    obtain ⟨hlt, rfl⟩ := List.getElem?_eq_some_iff.mp hk
    have hbefore := (firstFree_some _ _ hfirst).2
    rw [ht, Option.some.injEq]
    constructor
    · rintro rfl
      refine ⟨hc, fun c hm => ?_⟩
      obtain ⟨i, hi, rfl⟩ := List.mem_take_iff_getElem.mp hm
      obtain ⟨c, hs, hocc⟩ := hbefore i (by omega)
      rw [List.getElem?_eq_getElem (by omega), Option.some.injEq] at hs
      exact hs ▸ hocc
    · rintro ⟨-, hall⟩
      rcases lt_trichotomy j k with hjk | hjk | hkj
      · have hocc := hall s.cur.slots[j] (List.mem_take_iff_getElem.mpr ⟨j, by omega, rfl⟩)
        rw [hfree] at hocc
        cases hocc
      · exact hjk
      · obtain ⟨c, hs, hocc⟩ := hbefore k hkj
        rw [List.getElem?_eq_getElem hlt, Option.some.injEq] at hs
        rw [← hs, ho] at hocc
        cases hocc

theorem State.Inv.slotsNext_getElem?_of_occ {k : Nat} {sl : Slot} (hk : s.cur.slots[k]? = some sl) (ho : sl.occ = true) :
    s.slotsNext[k]? = some (sl.freed (s.ackedIds ++ s.abortedIds)) := by
  unfold State.slotsNext
  rcases h.slotTaken_eq with ⟨-, ht⟩ | ⟨j, hj, -, ht, hfree⟩
  · simp only [ht]
    exact h.freeSlots_getElem? hk
  · have hne : j ≠ k := by
      rintro rfl
      rw [List.getElem?_eq_getElem hj, Option.some.injEq] at hk
      rw [hk, ho] at hfree
      cases hfree
    simp only [ht]
    rw [List.getElem?_set_ne hne, h.freeSlots_getElem? hk]

theorem State.Inv.slotsNext_getElem?_of_free {k : Nat} {sl : Slot} (hk : s.cur.slots[k]? = some sl) (ho : sl.occ = false) :
    s.slotsNext[k]? = some (if s.slotTaken = some k then s.completedSlot else sl) := by
  have hfreed : sl.freed (s.ackedIds ++ s.abortedIds) = sl := if_neg (by simp [ho])
  have hget := h.freeSlots_getElem? hk
  rw [hfreed] at hget
  obtain ⟨hlt, -⟩ := List.getElem?_eq_some_iff.mp hget
  unfold State.slotsNext
  cases ht : s.slotTaken with
  | none => simpa using hget
  | some j =>
    rcases eq_or_ne j k with rfl | hne
    · simp only [if_true, List.getElem?_set_self hlt]
    · simp only [List.getElem?_set_ne hne, Option.some.injEq, hne, if_false, hget]

end Slots

theorem slotsNext_length (s : State) : s.slotsNext.length = s.cur.slots.length := by
  unfold State.slotsNext
  split
  · rw [List.length_set, freeSlots_length]
  · exact freeSlots_length _ _

/-- Settles O44: an occupied slot by the deletes of the tick, a free one by its store. -/
theorem slotsAfterTick : Obligations.SlotsAfterTick := by
  intro s t h hl ht
  obtain ⟨-, hcur, -⟩ := step_next_of_live hl ht
  have hslots : t.cur.slots = s.slotsNext := by rw [hcur]; rfl
  rw [hslots]
  refine ⟨slotsNext_length s, fun k sl hk => ⟨fun ho => ?occupied, fun ho => ?free⟩⟩
  case occupied =>
    rw [h.slotsNext_getElem?_of_occ hk ho, h.freed_of_occ (List.mem_of_getElem? hk) ho]
  case free =>
    rw [h.slotsNext_getElem?_of_free hk ho]
    exact congrArg some (if_congr (h.slotTaken_eq_some_iff hk ho) rfl rfl)

end Sys2Proof.Machine
end

section
namespace Sys2Proof.Machine

/-! ## The framer, R171 to R184 -/

/-! ### Its operations, one at a time -/

/-- R183: an operation that offers a beat changes no register while the link does not take it. -/
theorem stalled_and_taken {i : Instr} {s taken offered : State}
    (hx : exec i s = .next (if s.line.txReady then taken else offered)) :
    (s.line.txReady = false → exec i s = .next offered) ∧ (s.line.txReady = true → exec i s = .next taken) := by
  refine ⟨fun ht => ?_, fun ht => ?_⟩
  · rw [hx, ht, if_neg Bool.false_ne_true]
  · rw [hx, if_pos ht]

theorem winOpen_iff (s : State) : s.winOpen = true ↔ (s.cur.nts - s.cur.lastAcked).toNat < 2048 := decide_eq_true_iff

/-- R172: `can_start`, term by term. -/
theorem canStart_iff (s : State) :
    s.canStart = true ↔ s.framing .idle = true ∧ s.cur.replayReq = false ∧
      (s.cur.nts - s.cur.lastAcked).toNat < 2048 ∧ occCount s.cur.slots < s.par.nSlots ∧ upWordValid s.line.uw = true := by
  simp only [State.canStart, State.canOpen, Bool.and_eq_true, Bool.not_eq_true', winOpen_iff, decide_eq_true_iff, and_assoc]
  rfl

theorem framing_of_rcState_idle {s : State} {f : FrState} (hr : s.cur.rcState = .idle) (hf : s.cur.frState = f) :
    s.framing f = true := (framing_iff s f).mpr ⟨hr, hf⟩

/-- R178: the byte due is byte number MAX_PAYLOAD. -/
theorem atMax_iff (s : State) : s.atMax = true ↔ s.cur.txStage.length + 1 = s.par.maxPayload + 2 := beq_iff_eq

theorem atMax_eq_false_iff (s : State) : s.atMax = false ↔ s.cur.txStage.length + 1 ≠ s.par.maxPayload + 2 := by
  rw [← Bool.not_eq_true, atMax_iff]

/-! R177, R179, R180: the trailer byte due in each of the trailer states. -/
theorem trailerByte_crc0 {s : State} (hf : s.cur.frState = .crc0) : s.trailerByte = s.cur.txCrc.extractLsb' 24 8 := by
  rw [State.trailerByte, hf]
  rfl

theorem trailerByte_crc1 {s : State} (hf : s.cur.frState = .crc1) : s.trailerByte = s.cur.txCrc.extractLsb' 16 8 := by
  rw [State.trailerByte, hf]
  rfl

theorem trailerByte_crc2 {s : State} (hf : s.cur.frState = .crc2) : s.trailerByte = s.cur.txCrc.extractLsb' 8 8 := by
  rw [State.trailerByte, hf]
  rfl

theorem trailerByte_crc3 {s : State} (hf : s.cur.frState = .crc3) : s.trailerByte = s.cur.txCrc.extractLsb' 0 8 := by
  rw [State.trailerByte, hf]
  rfl

/-- Settles O10. -/
theorem startOffersHeaderByte : Obligations.StartOffersHeaderByte := by
  intro s hl hr hq hf hwin hroom hv
  have hc : s.canStart = true := (canStart_iff s).mpr ⟨framing_of_rcState_idle hr hf, hq, hwin, hroom, hv⟩
  exact stalled_and_taken (exec_txStart s hl hc)

/-- Settles O11. -/
theorem hdr1OffersHeaderByte : Obligations.Hdr1OffersHeaderByte := by
  intro s hl hr hf
  exact stalled_and_taken (exec_txHdr1 s hl (framing_of_rcState_idle hr hf))

/-- Settles O12: the byte number MAX_PAYLOAD without `up_last` is shut out, which is the condition of TX.DATA. -/
theorem dataPassesThrough : Obligations.DataPassesThrough := by
  intro last d s hl hr hf hm
  have hx := fun h => stalled_and_taken (exec_txData s last d hl (framing_of_rcState_idle hr hf) h)
  cases last with
  | true =>
    obtain ⟨hstall, htaken⟩ := hx rfl
    exact ⟨hstall, fun ht _ => htaken ht, fun _ h => absurd h Bool.false_ne_true.symm⟩
  | false =>
    obtain ⟨hstall, htaken⟩ := hx ((atMax_eq_false_iff s).mpr (hm rfl))
    exact ⟨hstall, fun _ h => absurd h Bool.false_ne_true, fun ht _ => htaken ht⟩

/-- Settles O13: a missing byte nullifies at once, one byte too many when it is taken. -/
theorem nullificationComplementsTrailer : Obligations.NullificationComplementsTrailer := by
  refine ⟨fun s hl hr hf => ?missing, fun d s hl hr hf hm => ?tooMany⟩
  case missing => exact exec_txNullify s hl (framing_of_rcState_idle hr hf)
  case tooMany => exact stalled_and_taken (exec_txOverlen s d hl (framing_of_rcState_idle hr hf) ((atMax_iff s).mpr hm))

/-- R177: TX.CRC in a trailer state `f` offers the byte due there and moves on. -/
theorem exec_txCrc_of_framing {s : State} {f : FrState} (hl : s.line.live = true) (hr : s.cur.rcState = .idle)
    (hf : s.cur.frState = f) (ht : f = .crc0 ∨ f = .crc1 ∨ f = .crc2) :
    let o := s.offer s.trailerByte false false false
    exec .txCrc s = .next (if s.line.txReady then o.write fun r => { r with frState := nextCrcState f } else o) := by
  have htr : s.trailing = true := by
    have hff := framing_of_rcState_idle hr hf
    rcases ht with rfl | rfl | rfl <;> simp [State.trailing, hff]
  exact hf ▸ exec_txCrc s hl htr

/-- Settles O14, trailer byte by trailer byte. -/
theorem crcBytesInOrder : Obligations.CrcBytesInOrder := by
  rintro b f g s hl hr hf (⟨rfl, rfl, rfl⟩ | ⟨rfl, rfl, rfl⟩ | ⟨rfl, rfl, rfl⟩)
  · rw [← trailerByte_crc0 hf]
    exact stalled_and_taken (exec_txCrc_of_framing hl hr hf (by decide))
  · rw [← trailerByte_crc1 hf]
    exact stalled_and_taken (exec_txCrc_of_framing hl hr hf (by decide))
  · rw [← trailerByte_crc2 hf]
    exact stalled_and_taken (exec_txCrc_of_framing hl hr hf (by decide))

/-- Settles O15. -/
theorem abortEndsNullifiedFrame : Obligations.AbortEndsNullifiedFrame := by
  intro s hl hr hf hn
  rw [← trailerByte_crc3 hf]
  exact stalled_and_taken (exec_txAbort s hl (framing_of_rcState_idle hr hf) hn)

/-- Settles O16. -/
theorem completeEndsGoodFrame : Obligations.CompleteEndsGoodFrame := by
  intro s hl hr hf hn
  rw [← trailerByte_crc3 hf]
  exact stalled_and_taken (exec_txComplete s hl (framing_of_rcState_idle hr hf) hn)

end Sys2Proof.Machine
end

section
namespace Sys2Proof.Machine

/-! ### What a tick does in each state of the framer, R171, R184 -/

theorem framing_eq_false_of_replaying {s : State} (hr : s.cur.rcState = .replaying) (f : FrState) :
    s.framing f = false := by
  rw [State.framing, hr]
  rfl

theorem canStart_eq_false_of_not_framing {s : State} (hf : s.framing .idle = false) : s.canStart = false := by
  rw [State.canStart, State.canOpen, hf]
  rfl

section InFrame
variable {s : State}

theorem framing_of_trailing (ht : s.trailing = true) :
    s.framing .idle = false ∧ s.framing .hdr1 = false ∧ s.framing .payload = false ∧ s.framing .crc3 = false := by
  simp only [State.trailing, Bool.or_eq_true] at ht
  obtain (h | h) | h := ht <;>
    exact ⟨framing_of s _ _ h, framing_of s _ _ h, framing_of s _ _ h, framing_of s _ _ h⟩

/-- R172, R184. -/
theorem frStateNext_of_idle (hf : s.framing .idle = true) (old : FrState) :
    s.frStateNext old = if s.canStart = true ∧ s.line.txReady = true then .hdr1 else old := by
  have hE := fun g => framing_of s .idle g hf
  simp [State.frStateNext, State.frameStarts, State.headerEnds, State.payloadEnds, State.overruns, State.starves,
    State.byteTaken, State.trailing, State.aborts, State.completes, hE]

/-- R174, R184. -/
theorem frStateNext_of_hdr1 (hf : s.framing .hdr1 = true) (old : FrState) :
    s.frStateNext old = if s.line.txReady = true then .payload else old := by
  have hE := fun g => framing_of s .hdr1 g hf
  have hc := canStart_eq_false_of_not_framing (hE .idle)
  simp [State.frStateNext, State.frameStarts, State.headerEnds, State.payloadEnds, State.overruns, State.starves,
    State.byteTaken, State.trailing, State.aborts, State.completes, hE, hc]

/-- R175, R176, R178: the framer leaves the payload on a missing byte, and when it takes the last byte or byte number
MAX_PAYLOAD. -/
theorem payload_ends_iff (hf : s.framing .payload = true) :
    (s.payloadEnds || s.overruns || s.starves) = true ↔
      upWordValid s.line.uw = false ∨
        s.line.txReady = true ∧ (upWordLast s.line.uw = true ∨ s.atMax = true) := by
  simp only [State.payloadEnds, State.overruns, State.starves, State.byteTaken, hf]
  cases upWordValid s.line.uw <;> cases s.line.txReady <;> cases upWordLast s.line.uw <;> simp

theorem frStateNext_of_payload (hf : s.framing .payload = true) (old : FrState) :
    s.frStateNext old =
      if upWordValid s.line.uw = false then .crc0
      else if s.line.txReady = true ∧ (upWordLast s.line.uw = true ∨ s.atMax = true) then .crc0
      else old := by
  have hE := fun g => framing_of s .payload g hf
  have hc := canStart_eq_false_of_not_framing (hE .idle)
  have hends := payload_ends_iff hf
  rw [← ite_or, ← if_congr hends rfl rfl]
  simp [State.frStateNext, State.frameStarts, State.headerEnds, State.trailing, State.aborts, State.completes, hE, hc]

/-- R177, R184. -/
theorem frStateNext_of_trailing (ht : s.trailing = true) (old : FrState) :
    s.frStateNext old = if s.line.txReady = true then nextCrcState s.cur.frState else old := by
  obtain ⟨hidle, hhdr1, hpayload, hcrc3⟩ := framing_of_trailing ht
  have hc := canStart_eq_false_of_not_framing hidle
  simp [State.frStateNext, State.frameStarts, State.headerEnds, State.payloadEnds, State.overruns, State.starves,
    State.byteTaken, State.aborts, State.completes, hhdr1, hpayload, hcrc3, hc, ht]

/-- R179, R180, R184. -/
theorem frStateNext_of_crc3 (hf : s.framing .crc3 = true) (old : FrState) :
    s.frStateNext old = if s.line.txReady = true then .idle else old := by
  have hE := fun g => framing_of s .crc3 g hf
  have hc := canStart_eq_false_of_not_framing (hE .idle)
  have hdone : (s.aborts || s.completes) = s.line.txReady := by
    simp only [State.aborts, State.completes, hf]
    cases s.cur.txNull <;> simp
  simp [State.frStateNext, State.frameStarts, State.headerEnds, State.payloadEnds, State.overruns, State.starves,
    State.byteTaken, State.trailing, hE, hc, ← hdone]

end InFrame

/-- Settles O48: with the link down by the reset values, while replaying by `framer_keeps`, else state by state. -/
theorem framerMoves : Obligations.FramerMoves := by
  intro s t ht
  refine ⟨fun hl => ?down, fun hl hr => ?replaying, fun hl hr => ?framing⟩
  case down =>
    obtain ⟨-, hcur, -⟩ := step_next_of_down hl ht
    rw [hcur]
    rfl
  all_goals
    obtain ⟨-, hcur, -⟩ := step_next_of_live hl ht
    have hnext : t.cur.frState = s.frStateNext s.cur.frState := by rw [hcur]; rfl
    rw [hnext]
  case replaying => exact (framer_keeps s (framing_eq_false_of_replaying hr)).1
  case framing =>
    refine ⟨fun hf => ?idle, fun hf => ?hdr1, fun hf => ?payload, fun hf => ?crc0, fun hf => ?crc1, fun hf => ?crc2,
      fun hf => ?crc3⟩
    all_goals have hff := framing_of_rcState_idle hr hf
    case idle => rw [frStateNext_of_idle hff, hf]
    case hdr1 => rw [frStateNext_of_hdr1 hff, hf]
    case payload => simp only [frStateNext_of_payload hff, atMax_iff, hf]
    case crc3 => rw [frStateNext_of_crc3 hff, hf]
    all_goals
      rw [frStateNext_of_trailing (by simp [State.trailing, hff]), hf]
      rfl

/-! ### The transmit stream of a tick, R171 -/

/-- The six outputs of R171. -/
def PortOut.stream (o : PortOut) : Bool × Byte × Bool × Bool × Bool × Bool :=
  (o.txValid, o.txData, o.txSof, o.txEof, o.txBad, o.upReady)

/-- Nothing but the framer and the replay pass drives the stream. -/
theorem liveOut_eq_drives (s : State) :
    ∃ o, s.liveOut = s.framerDrives (s.replayDrives o) ∧ o.stream = (false, 0, false, false, false, false) := by
  refine ⟨_, rfl, ?_⟩
  rw [State.messageDrives, State.baseOut]
  split <;> split <;> rfl

section InFrame
variable {s : State}

theorem framerDrives_of_idle (hf : s.framing .idle = true) (o : PortOut) :
    s.framerDrives o =
      if s.canStart = true then
        { o with txValid := true, txData := hdrByte0 s.cur.nts, txSof := true, txEof := false, txBad := false }
      else o := by
  have hE := fun g => framing_of s .idle g hf
  simp [State.framerDrives, State.starves, State.trailing, hE]

theorem framerDrives_of_hdr1 (hf : s.framing .hdr1 = true) (o : PortOut) :
    s.framerDrives o =
      { o with txValid := true, txData := hdrByte1 s.cur.nts, txSof := false, txEof := false, txBad := false } := by
  have hc := canStart_eq_false_of_not_framing (framing_of s .hdr1 .idle hf)
  simp [State.framerDrives, hc, hf]

theorem framerDrives_of_payload (hf : s.framing .payload = true) (o : PortOut) :
    s.framerDrives o =
      if upWordValid s.line.uw = true then
        { o with txValid := true, txData := upWordData s.line.uw, txSof := false, txEof := false, txBad := false,
                 upReady := s.line.txReady }
      else { o with upReady := s.line.txReady } := by
  have hE := fun g => framing_of s .payload g hf
  have hc := canStart_eq_false_of_not_framing (hE .idle)
  cases hv : upWordValid s.line.uw <;> simp [State.framerDrives, State.starves, hE, hc, hv]

theorem framerDrives_of_trailing (ht : s.trailing = true) (o : PortOut) :
    s.framerDrives o =
      { o with txValid := true, txData := s.trailerByte, txSof := false, txEof := false, txBad := false } := by
  obtain ⟨-, hhdr1, hpayload, -⟩ := framing_of_trailing ht
  have hc := canStart_eq_false_of_not_framing (framing_of_trailing ht).1
  simp [State.framerDrives, State.starves, hhdr1, hpayload, hc, ht]

theorem framerDrives_of_crc3 (hf : s.framing .crc3 = true) (o : PortOut) :
    s.framerDrives o =
      { o with txValid := true, txData := s.trailerByte, txSof := false, txEof := true, txBad := s.cur.txNull } := by
  have hE := fun g => framing_of s .crc3 g hf
  have hc := canStart_eq_false_of_not_framing (hE .idle)
  simp [State.framerDrives, State.starves, State.trailing, hE, hc]

end InFrame

theorem framerDrives_of_replaying {s : State} (hr : s.cur.rcState = .replaying) (o : PortOut) : s.framerDrives o = o := by
  have hf := framing_eq_false_of_replaying hr
  simp [State.framerDrives, State.starves, State.trailing, hf, canStart_eq_false_of_not_framing]

theorem replayDrives_of_not_resends {s : State} (hb : s.resends = false) (o : PortOut) : s.replayDrives o = o :=
  if_neg (Bool.eq_false_iff.mp hb)

theorem resends_eq_false_of_idle {s : State} (hr : s.cur.rcState = .idle) : s.resends = false := by
  rw [State.resends, hr]
  rfl

theorem resends_of_replaying {s : State} (hr : s.cur.rcState = .replaying) : s.resends = s.cur.rpBusy := by
  rw [State.resends, hr]
  rfl

/-- R171: the stream in `RC_IDLE` is the framer's. -/
theorem stream_of_idle {s : State} (hr : s.cur.rcState = .idle) :
    ∃ o, s.liveOut = s.framerDrives o ∧ o.stream = (false, 0, false, false, false, false) := by
  obtain ⟨o, hout, ho⟩ := liveOut_eq_drives s
  rw [replayDrives_of_not_resends (resends_eq_false_of_idle hr)] at hout
  exact ⟨o, hout, ho⟩

/-- R171: the stream in `RC_REPLAYING` is the replay pass's. -/
theorem stream_of_replaying {s : State} (hr : s.cur.rcState = .replaying) :
    ∃ o, s.liveOut = s.replayDrives o ∧ o.stream = (false, 0, false, false, false, false) := by
  obtain ⟨o, hout, ho⟩ := liveOut_eq_drives s
  rw [framerDrives_of_replaying hr] at hout
  exact ⟨o, hout, ho⟩

/-- Settles O51: one source drives the stream, on outputs whose stream is all 0. -/
theorem streamOutputs : Obligations.StreamOutputs := by
  intro s t hl ht stream c
  obtain ⟨-, -, hout⟩ := step_next_of_live hl ht
  have hstream : stream = s.liveOut.stream := congrArg PortOut.stream hout
  rw [hstream]
  refine ⟨fun hr => ?framer, fun hr => ?pass⟩
  case framer =>
    obtain ⟨o, hdrives, ho⟩ := stream_of_idle hr
    simp only [PortOut.stream, Prod.mk.injEq] at ho
    obtain ⟨hvalid, hdata, hsof, heof, hbad, hup⟩ := ho
    rw [hdrives]
    refine ⟨fun hf => ?idle, fun hf => ?hdr1, fun hf => ?payload, fun hf => ?crc0, fun hf => ?crc1, fun hf => ?crc2,
      fun hf => ?crc3⟩
    all_goals have hff := framing_of_rcState_idle hr hf
    case idle =>
      rw [framerDrives_of_idle hff, apply_ite PortOut.stream]
      simp only [PortOut.stream, hvalid, hdata, hsof, heof, hbad, hup]
      rfl
    case hdr1 =>
      rw [framerDrives_of_hdr1 hff]
      simp only [PortOut.stream, hup]
      rfl
    case payload =>
      rw [framerDrives_of_payload hff]
      cases upWordValid s.line.uw <;> simp [PortOut.stream, hvalid, hdata, hsof, heof, hbad]
    case crc3 =>
      rw [framerDrives_of_crc3 hff, trailerByte_crc3 hf]
      simp only [PortOut.stream, hup]
      rfl
    all_goals rw [framerDrives_of_trailing (by simp [State.trailing, hff])]
    all_goals simp only [PortOut.stream, hup]
    case crc0 => rw [trailerByte_crc0 hf]
    case crc1 => rw [trailerByte_crc1 hf]
    case crc2 => rw [trailerByte_crc2 hf]
  case pass =>
    obtain ⟨o, hdrives, ho⟩ := stream_of_replaying hr
    rw [hdrives]
    refine ⟨fun b hb hbyte => ?busy, fun hb => ?waiting⟩
    case busy =>
      simp only [PortOut.stream, Prod.mk.injEq] at ho
      obtain ⟨-, -, -, -, -, hup⟩ := ho
      rw [State.replayDrives, if_pos (by rw [resends_of_replaying hr, hb]), replayByte_of_getElem? hbyte,
        lastBeat_of_getElem? hbyte, beq_eq_decide]
      simp only [PortOut.stream, hup]
    case waiting => rw [replayDrives_of_not_resends (by rw [resends_of_replaying hr, hb]), ho]

end Sys2Proof.Machine
end

section
namespace Sys2Proof.Machine

/-! ## The replay controller, R190 to R201 -/

/-! ### Its conditions, R190 -/

/-- R190: `pass_start`, term by term. -/
theorem passStart_iff (s : State) :
    s.passStart = true ↔ s.cur.replayReq = true ∧ 0 < occCount s.cur.slots ∧
      ((s.cur.rcState = .idle ∧ s.cur.frState = .idle) ∨
        (s.cur.rcState = .replaying ∧ s.cur.rpBusy = false ∧ s.cur.rpPass = false)) := by
  simp only [State.passStart, Bool.and_eq_true, Bool.or_eq_true, framing_iff, Bool.not_eq_true', beq_iff_eq,
    decide_eq_true_iff, and_assoc]
  rfl

/-- R190: `pass_live`. -/
theorem passLive_iff (s : State) : s.passLive = true ↔ s.cur.rcState = .replaying ∧ s.cur.rpPass = true := by
  rw [State.passLive, Bool.and_eq_true, beq_iff_eq]

/-- R190: `req_drop`, term by term. -/
theorem reqDrop_iff (s : State) :
    s.reqDrop = true ↔ s.cur.replayReq = true ∧ (s.cur.rcState = .idle ∧ s.cur.frState = .idle) ∧
      occCount s.cur.slots = 0 := by
  simp only [State.reqDrop, Bool.and_eq_true, framing_iff, beq_iff_eq, and_assoc]
  rfl

theorem rbEmpty_iff (s : State) : s.rbEmpty = true ↔ occCount s.cur.slots = 0 := beq_iff_eq

theorem replayWaiting_iff (s : State) : s.replayWaiting = true ↔ s.cur.rcState = .replaying ∧ s.cur.rpBusy = false := by
  rw [State.replayWaiting, Bool.and_eq_true, beq_iff_eq, Bool.not_eq_true']

/-- R195, R196, R198: a live pass between two frames, term by term. -/
theorem passBetween_iff (s : State) :
    s.passBetween = true ↔ (s.cur.rcState = .replaying ∧ s.cur.rpBusy = false) ∧ s.cur.rpPass = true ∧
      0 < occCount s.cur.slots := by
  rw [State.passBetween, Bool.and_eq_true, Bool.and_eq_true, replayWaiting_iff, decide_eq_true_iff, and_assoc]
  rfl

/-- R190: `head`. -/
theorem head_eq (s : State) : s.head = if h : s.cur.unacked = [] then s.cur.nts else s.cur.unacked.head h := by
  rw [State.head]
  cases s.cur.unacked <;> rfl

/-! ### Its operations, one at a time -/

theorem exec_txReplayEnter {s : State} (hl : s.line.live = true) (hr : s.cur.rcState = .idle) (hp : s.passStart = true) :
    exec .txReplayEnter s = .next s.enterReplaying :=
  happens_of (fun t => t.cur.rcState == .idle && t.passStart) _ s hl (by rw [hr, hp]; rfl)

theorem exec_txReplayAgain {s : State} (hl : s.line.live = true) (hr : s.cur.rcState = .replaying)
    (hp : s.passStart = true) : exec .txReplayAgain s = .next s.startPass :=
  happens_of (fun t => t.cur.rcState == .replaying && t.passStart) _ s hl (by rw [hr, hp]; rfl)

theorem exec_txReplayDrop {s : State} (hl : s.line.live = true) (hd : s.reqDrop = true) :
    exec .txReplayDrop s = .next (s.write fun r => { r with replayReq := false }) :=
  happens_of State.reqDrop (fun t => t.write fun r => { r with replayReq := false }) s hl hd

theorem exec_txReplayExit {s : State} (hl : s.line.live = true) (hx : s.passExits = true) :
    exec .txReplayExit s = .next s.exitReplaying := happens_of State.passExits _ s hl hx

theorem exec_txReplayPassend {s : State} (hl : s.line.live = true) (he : s.passEnds = true) :
    exec .txReplayPassend s = .next (s.write fun r => { r with rpPass := false }) :=
  happens_of State.passEnds (fun t => t.write fun r => { r with rpPass := false }) s hl he

theorem exec_txReplaySend {s : State} (hl : s.line.live = true) (hs : s.passSends = true) :
    exec .txReplaySend s = .next (s.request fun q => { q with send := reqWord true s.cur.rpId }) :=
  happens_of State.passSends (fun t => t.request fun q => { q with send := reqWord true t.cur.rpId }) s hl hs

theorem exec_txReplaySkip {s : State} (hl : s.line.live = true) (hs : s.passSkips = true) :
    exec .txReplaySkip s = .next s.advanceCursor := happens_of State.passSkips _ s hl hs

theorem exec_txReplayNext {s : State} (hl : s.line.live = true) (hb : s.cur.rpBusy = true) (he : s.lastBeat = true)
    (ht : s.line.txReady = true) : exec .txReplayNext s = .next s.advanceCursor :=
  happens_of (fun t => t.cur.rpBusy && t.lastBeat && t.line.txReady) _ s hl (by rw [hb, he, ht]; rfl)

/-- Settles O17. -/
theorem passStartsAtHead : Obligations.PassStartsAtHead := by
  intro s hl hq hstored
  rw [← head_eq]
  refine ⟨fun hr hf => ?enter, fun hr hb hp => ?again⟩
  case enter => exact exec_txReplayEnter hl hr ((passStart_iff s).mpr ⟨hq, hstored, .inl ⟨hr, hf⟩⟩)
  case again => exact exec_txReplayAgain hl hr ((passStart_iff s).mpr ⟨hq, hstored, .inr ⟨hr, hb, hp⟩⟩)

/-- Settles O18. -/
theorem passEndsAndExits : Obligations.PassEndsAndExits := by
  refine ⟨fun s hl hq hr hf hnone => ?drop, fun s hl hr hb hnone => ?exit, fun s hl hr hb hstored hp hi => ?passend⟩
  case drop => exact exec_txReplayDrop hl ((reqDrop_iff s).mpr ⟨hq, ⟨hr, hf⟩, hnone⟩)
  case exit =>
    have hw : s.replayWaiting = true := (replayWaiting_iff s).mpr ⟨hr, hb⟩
    exact exec_txReplayExit hl (by rw [State.passExits, hw, (rbEmpty_iff s).mpr hnone]; rfl)
  case passend =>
    have hbetween : s.passBetween = true := (passBetween_iff s).mpr ⟨⟨hr, hb⟩, hp, hstored⟩
    exact exec_txReplayPassend hl (by rw [State.passEnds, hbetween, hi, beq_self_eq_true]; rfl)

/-- Settles O19: at the cursor by whether its id is held. -/
theorem cursorWalksTheFrames : Obligations.CursorWalksTheFrames := by
  refine ⟨fun s hl hr hb hstored hp hi => ?between, fun s hl hb hlast ht => ?lastTaken⟩
  case between =>
    have hbetween : s.passBetween = true := (passBetween_iff s).mpr ⟨⟨hr, hb⟩, hp, hstored⟩
    have hne : (s.cur.rpId != s.cur.nts) = true := bne_iff_ne.mpr hi
    refine ⟨fun hheld => ?send, fun hno => ?skip⟩
    case send =>
      have hf : (find s.cur.slots s.cur.rpId).isSome = true := (find_isSome_iff _ _).mpr hheld
      exact exec_txReplaySend hl (by rw [State.passSends, hbetween, hne, hf]; rfl)
    case skip =>
      have hf : find s.cur.slots s.cur.rpId = none :=
        (find_eq_none_iff _ _).mpr fun ⟨sl, hm, h⟩ => hno sl hm h
      exact exec_txReplaySkip hl (by rw [State.passSkips, hbetween, hne, hf]; rfl)
  case lastTaken => exact exec_txReplayNext hl hb (beq_iff_eq.mpr hlast) ht

/-! ### Its registers after a tick, R201, R213 -/

/-- R194, R195: with nothing stored the pass is left at its end all the same. -/
theorem passExits_or_passEnds (s : State) :
    (s.passExits || s.passEnds) =
      (s.passExits || s.replayWaiting && s.cur.rpPass && s.cur.rpId == s.cur.nts) := by
  have hempty := rbEmpty_eq_not_pos s
  simp only [State.passExits, State.passEnds, State.passBetween, hempty]
  cases decide (0 < s.rbCount) <;> cases s.replayWaiting <;> simp

/-- R198: the skip by the slots. -/
theorem passSkips_eq (s : State) :
    s.passSkips = (s.replayWaiting && s.rbCount != 0 && s.cur.rpPass && s.cur.rpId != s.cur.nts &&
      !(s.cur.slots.any fun sl => sl.occ && sl.id == s.cur.rpId)) := by
  have hpos : decide (0 < s.rbCount) = (s.rbCount != 0) := by
    rw [bne, beq_eq_decide, ← decide_not, decide_eq_decide, Nat.pos_iff_ne_zero]
  rw [State.passSkips, State.passBetween, ← find_isSome_eq_any, Option.not_isSome, hpos,
    Bool.and_right_comm s.replayWaiting]

/-- Settles O49: the reset values with the link down, else register by register. -/
theorem replayMoves : Obligations.ReplayMoves := by
  intro s t ht
  refine ⟨fun hl => ?down, fun hl => ?up⟩
  case down =>
    obtain ⟨-, hcur, -⟩ := step_next_of_down hl ht
    rw [hcur]
    exact ⟨rfl, rfl⟩
  case up =>
    obtain ⟨-, hcur, -⟩ := step_next_of_live hl ht
    rw [hcur]
    intro exits ends sent skips
    have hsent : s.frameResent = sent := (Bool.and_assoc _ _ _).symm
    have hskips : s.passSkips = skips := passSkips_eq s
    refine ⟨?rcState, rfl, ?rpPass, ?rpId⟩
    case rcState =>
      change s.rcStateNext s.cur.rcState = _
      rw [State.rcStateNext]
      exact if_congr (by rw [Bool.and_eq_true, beq_iff_eq]) rfl rfl
    case rpPass =>
      change s.rpPassNext s.cur.rpPass = _
      rw [State.rpPassNext, passExits_or_passEnds]
      rfl
    case rpId =>
      change s.rpIdNext s.cur.rpId = _
      rw [State.rpIdNext, hsent, hskips]
      rfl

end Sys2Proof.Machine
end

section
namespace Sys2Proof.Machine

/-! ## The acknowledgement logic and the replay timer, R204 to R213 -/

/-! ### Their operations, one at a time -/

theorem exec_txAck {s : State} {x : Seq} (hl : s.line.live = true) (hx : s.ackEff x = true) :
    exec (.txAck x) s = .next ((s.request fun q => { q with delA := rangeWord true (s.cur.unacked.headD x) x }).write fun r =>
      { r with unacked := s.cur.unacked.drop (s.cur.unacked.idxOf x + 1), lastAcked := x, replayTimer := 0 }) := by
  simp only [exec, execTxAck]
  rw [happens_of _ _ s hl hx]

theorem exec_txNak {s : State} (x : Seq) (hl : s.line.live = true) (hp : s.passLive = false) (hs : s.passStart = false) :
    exec (.txNak x) s = .next (s.write fun r => { r with replayReq := true }) :=
  happens_of (fun t => !t.passLive && !t.passStart) (fun t => t.write fun r => { r with replayReq := true }) s hl
    (by rw [hp, hs]; rfl)

theorem exec_txTimeout {s : State} (hl : s.line.live = true) (he : s.replayExpires = true) :
    exec .txTimeout s = .next (s.write fun r => { r with replayTimer := 0, replayReq := true }) :=
  happens_of State.replayExpires (fun t => t.write fun r => { r with replayTimer := 0, replayReq := true }) s hl he

/-- R205: what an ACK for the first `x` leaves of `unacked`. -/
theorem drop_idxOf_append_cons {before : List Seq} {x : Seq} (after : List Seq) (h : x ∉ before) :
    (before ++ x :: after).drop ((before ++ x :: after).idxOf x + 1) = after := by
  rw [List.idxOf_append_of_notMem h, List.idxOf_cons_self, Nat.add_zero, ← List.drop_drop, List.drop_left, List.drop_one,
    List.tail_cons]

theorem headD_append_cons (before after : List Seq) (x d : Seq) :
    (before ++ x :: after).headD d = (before ++ [x]).headD 0 := by
  cases before <;> rfl

/-- Settles O20. -/
theorem ackReleasesUpToId : Obligations.AckReleasesUpToId := by
  intro before after x s hl hu hx
  have hmem : s.ackEff x = true := by
    rw [State.ackEff, hu]
    simp
  rw [exec_txAck hl hmem, hu, drop_idxOf_append_cons after hx, headD_append_cons]
  rfl

/-- Settles O21: whether or not the operation happens, its effect is the state it is given. -/
theorem ignoredMessagesChangeNothing : Obligations.IgnoredMessagesChangeNothing := by
  intro x s
  have hid : happens (fun _ => true) (fun t => t) s = .next s := congrArg Host.Outcome.next (ite_self s)
  exact ⟨hid, hid⟩

/-- Settles O22. -/
theorem nakAsksForReplay : Obligations.NakAsksForReplay := by
  intro x s hl hlive hstart
  exact exec_txNak x hl (Bool.eq_false_iff.mpr fun h => hlive ((passLive_iff s).mp h))
    (Bool.eq_false_iff.mpr fun h => hstart ((passStart_iff s).mp h))

/-- R210, line 1, as a proposition. -/
theorem replayTimerHeld_iff (s : State) :
    s.replayTimerHeld = true ↔
      s.nxt.unacked = [] ∨ s.ackEffective = true ∨ s.passLive = true ∨ s.passStart = true := by
  simp only [State.replayTimerHeld, Bool.or_eq_true, List.isEmpty_iff, or_assoc]

/-- R210, line 3, as a proposition. -/
theorem replayExpires_iff (s : State) :
    s.replayExpires = true ↔
      s.replayTimerHeld = false ∧ s.cur.unacked ≠ [] ∧ s.par.replayLimit ≤ s.cur.replayTimer + 1 := by
  simp only [State.replayExpires, Bool.and_eq_true, Bool.not_eq_true', decide_eq_true_iff, List.isEmpty_eq_false_iff,
    and_assoc]

/-- Settles O23. -/
theorem timeoutAsksForReplay : Obligations.TimeoutAsksForReplay := by
  intro s hl hnext hcur hack hlive hstart hlimit
  have hheld : s.replayTimerHeld = false := by
    rw [← Bool.not_eq_true, replayTimerHeld_iff, hack, hlive, hstart]
    simp [hnext]
  exact exec_txTimeout hl ((replayExpires_iff s).mpr ⟨hheld, hcur, hlimit⟩)

/-! ### Their registers after a tick, R210 to R212 -/

/-- R210: the four lines, one after the other. -/
theorem replayTimerNext_eq (s : State) :
    s.replayTimerNext =
      if s.nxt.unacked = [] ∨ s.ackEffective = true ∨ s.passLive = true ∨ s.passStart = true then 0
      else if s.cur.unacked = [] then 0
      else if s.par.replayLimit ≤ s.cur.replayTimer + 1 then 0
      else s.cur.replayTimer + 1 := by
  rw [← if_congr (replayTimerHeld_iff s) rfl rfl, State.replayTimerNext, State.replayExpires]
  cases hh : s.replayTimerHeld
  · cases hu : s.cur.unacked <;> simp
  · rfl

/-- Settles O41: the clocking of the timer reads `unacked` after the tick. -/
theorem replayTimerAfterTick : Obligations.ReplayTimerAfterTick := by
  intro s t hl ht
  obtain ⟨-, hcur, -⟩ := step_next_of_live hl ht
  rw [hcur]
  exact replayTimerNext_eq s.beforeExpiry

/-- R211: no NAK and no expiry asks for a replay in the tick in which a pass starts. -/
theorem naks_eq_false_of_passStart {s : State} (hp : s.passStart = true) : s.naks = false := by
  rw [State.naks, hp, Bool.or_true, Bool.not_true, Bool.and_false]

theorem replayExpires_eq_false_of_passStart {s : State} (hp : s.passStart = true) : s.replayExpires = false := by
  have hheld : s.replayTimerHeld = true := (replayTimerHeld_iff s).mpr (.inr (.inr (.inr hp)))
  rw [State.replayExpires, hheld]
  rfl

theorem replayReq_liveRegs (s : State) :
    s.liveRegs.replayReq =
      if s.passStart then false else (s.cur.replayReq && !s.reqDrop) || s.naks || s.beforeExpiry.replayExpires := by
  change (if s.beforeExpiry.replayExpires then true else if s.naks then true else s.replayReqKept s.cur.replayReq) = _
  rw [State.replayReqKept]
  cases hp : s.passStart with
  | true =>
    have hexp : s.beforeExpiry.replayExpires = false := replayExpires_eq_false_of_passStart hp
    rw [hexp, naks_eq_false_of_passStart hp]
    rfl
  | false => cases s.beforeExpiry.replayExpires <;> cases s.naks <;> cases s.reqDrop <;> simp

/-- Settles O42. -/
theorem replayRequestAfterTick : Obligations.ReplayRequestAfterTick := by
  intro s t hl ht
  obtain ⟨-, hcur, -⟩ := step_next_of_live hl ht
  rw [hcur]
  intro nakSet expSet
  have hnak : s.naks = nakSet := by rw [State.naks, Bool.not_or, ← Bool.and_assoc]
  have hexp : s.beforeExpiry.replayExpires = expSet := rfl
  rw [← hnak, ← hexp]
  exact replayReq_liveRegs s

/-- Settles O43: `unackedKept` is the removal, `unackedPushed` the append. -/
theorem windowAfterTick : Obligations.WindowAfterTick := by
  intro s t hl ht
  obtain ⟨-, hcur, -⟩ := step_next_of_live hl ht
  rw [hcur]
  exact ⟨rfl, rfl, rfl⟩

end Sys2Proof.Machine
end

section
namespace Sys2Proof.Machine

/-! ## The class of a received frame, R228 -/

/-! ### The fields of a received frame, R97, whatever its reserved nibble is -/

@[simp] theorem rxId_cons_cons (b0 b1 : Byte) (f : List Byte) : rxId (b0 :: b1 :: f) = b0.extractLsb' 0 4 ++ b1 := rfl

/-- A frame is what its trailer covers, then the trailer. -/
theorem received_cut (b0 b1 : Byte) (p : List Byte) (c : Crc) :
    b0 :: b1 :: (p ++ be32 c) = (b0 :: b1 :: p) ++ be32 c ∧
      (b0 :: b1 :: (p ++ be32 c)).length - 4 = (b0 :: b1 :: p).length := by
  refine ⟨rfl, ?_⟩
  simp only [List.length_cons, List.length_append, be32_length]
  omega

@[simp] theorem rxCovered_received (b0 b1 : Byte) (p : List Byte) (c : Crc) :
    rxCovered (b0 :: b1 :: (p ++ be32 c)) = b0 :: b1 :: p := by
  obtain ⟨hcut, hlen⟩ := received_cut b0 b1 p c
  rw [rxCovered, hlen, hcut, List.take_left]

@[simp] theorem rxTrailer_received (b0 b1 : Byte) (p : List Byte) (c : Crc) :
    rxTrailer (b0 :: b1 :: (p ++ be32 c)) = c := by
  obtain ⟨hcut, hlen⟩ := received_cut b0 b1 p c
  rw [rxTrailer, hlen, hcut, List.drop_left, unbe32_be32]

@[simp] theorem rxPayload_received (b0 b1 : Byte) (p : List Byte) (c : Crc) :
    rxPayload (b0 :: b1 :: (p ++ be32 c)) = p :=
  congrArg (List.drop 2) (rxCovered_received b0 b1 p c)

theorem frameBytes_eq_received (i : Seq) (p : List Byte) (c : Crc) :
    frameBytes i p c = hdrByte0 i :: hdrByte1 i :: (p ++ be32 c) := rfl

/-! ### The tests in the order of R228 -/

theorem seqOldeq_iff (ref i : Seq) : seqOldeq ref i = true ↔ (ref - i).toNat ≤ 2048 := decide_eq_true_iff

/-- R228: a frame that is too short, truncated or oversize is Corrupt before anything else of it is looked at. -/
theorem rxClass_of_malformed {s : State}
    (h : s.cur.rxStage.length < 6 ∨ s.cur.rxTrunc = true ∨ s.cur.rxOversize = true) : s.rxClass = .corrupt :=
  if_pos (by simpa [or_assoc] using h)

/-- The frame under validation is `b0, b1, p, be32(c)`, and it came in whole. -/
structure State.Received (s : State) (b0 b1 : Byte) (p : List Byte) (c : Crc) : Prop where
  stage   : s.cur.rxStage = b0 :: b1 :: (p ++ be32 c)
  whole   : s.cur.rxTrunc = false
  inRange : s.cur.rxOversize = false

section Received
variable {s : State} {b0 b1 : Byte} {p : List Byte} {c : Crc}

theorem State.Received.rxClass_eq (h : s.Received b0 b1 p c) :
    s.rxClass =
      if crcOf s.par.crc (b0 :: b1 :: p) ≠ c then .corrupt
      else if b0.extractLsb' 0 4 ++ b1 = s.cur.nrs then .accept
      else if (s.cur.nrs - (b0.extractLsb' 0 4 ++ b1)).toNat ≤ 2048 then .duplicate
      else .gap := by
  have hwell : (decide (s.cur.rxStage.length < 6) || s.cur.rxTrunc || s.cur.rxOversize) = false := by
    simp [h.stage, h.whole, h.inRange]
  rw [State.rxClass, hwell, if_neg Bool.false_ne_true, h.stage, rxCovered_received, rxTrailer_received, rxId_cons_cons]
  simp only [bne_iff_ne, beq_iff_eq, seqOldeq_iff]

/-- R228: a trailer that does not match decides the class; the id is not looked at. -/
theorem State.Received.rxClass_of_mismatch (h : s.Received b0 b1 p c) (hc : c ≠ crcOf s.par.crc (b0 :: b1 :: p)) :
    s.rxClass = .corrupt := by
  rw [h.rxClass_eq, if_pos hc.symm]

/-- R228: the class of a frame with a matching trailer is that of its id. -/
theorem State.Received.rxClass_of_match (h : s.Received b0 b1 p (crcOf s.par.crc (b0 :: b1 :: p))) :
    s.rxClass =
      if b0.extractLsb' 0 4 ++ b1 = s.cur.nrs then .accept
      else if (s.cur.nrs - (b0.extractLsb' 0 4 ++ b1)).toNat ≤ 2048 then .duplicate
      else .gap := by
  rw [h.rxClass_eq, if_neg fun hne => hne rfl]

end Received

/-- R228: only `nrs` itself is at distance 0. -/
theorem ne_of_one_le_dist {nrs i : Seq} (h : 1 ≤ (nrs - i).toNat) : i ≠ nrs := by
  rintro rfl
  rw [sub_self] at h
  exact absurd h (by decide)

/-- No word is its own complement, so that a nullified frame never matches (R8, R182). -/
theorem complement_ne (c : Crc) : ~~~ c ≠ c := fun h => by
  have hbit := congrArg (fun w => w.getLsbD 0) h
  simp at hbit

/-- Settles O53: a nullified frame is malformed, or came in whole with a trailer that does not match. -/
theorem classification : Obligations.Classification := by
  refine ⟨fun s h => rxClass_of_malformed h, fun b0 b1 p c s hs ht ho => State.Received.rxClass_eq ⟨hs, ht, ho⟩,
    fun i p s hs => ?nullified⟩
  case nullified =>
    by_cases hbad : s.cur.rxTrunc = true ∨ s.cur.rxOversize = true
    · exact rxClass_of_malformed (.inr hbad)
    · rw [not_or, Bool.not_eq_true, Bool.not_eq_true] at hbad
      obtain ⟨ht, ho⟩ := hbad
      rw [frameBytes_eq_received] at hs
      exact State.Received.rxClass_of_mismatch ⟨hs, ht, ho⟩ (complement_ne _)

end Sys2Proof.Machine
end

section
namespace Sys2Proof.Machine

/-! ## The receive engine's operations, R220 to R243

Each operation of a tick with the link up, where its condition holds. -/

/-! ### Capture, R221 to R225 -/

section Capture
variable {s : State} (hl : s.line.live = true)
include hl

theorem exec_rxStart (hx : s.cur.rxState = .idle) (eof bad : Bool) (d : Byte) :
    exec (.rxStart eof bad d) s = .next
      (if eof then s.write fun r => { r with rxStage := [d], rxOversize := false, rxTrunc := bad, rxState := .validating }
       else s.write fun r => { r with rxStage := [d], rxOversize := false, rxState := .receiving }) := by
  simp only [exec, execRxStart]
  rw [happens_of (fun t => t.cur.rxState == .idle) _ s hl (beq_iff_eq.mpr hx)]

theorem exec_rxStray (hx : s.cur.rxState = .idle) : exec .rxStray s = .next s :=
  happens_of (fun t => t.cur.rxState == .idle) (fun t => t) s hl (beq_iff_eq.mpr hx)

theorem exec_rxData (hx : s.cur.rxState = .receiving) (d : Byte) : exec (.rxData d) s = .next (s.capture d) :=
  happens_of (fun t => t.cur.rxState == .receiving) (fun t => t.capture d) s hl (beq_iff_eq.mpr hx)

theorem exec_rxEnd (hx : s.cur.rxState = .receiving) (d : Byte) : exec (.rxEnd d) s = .next (s.captureLast d false) :=
  happens_of (fun t => t.cur.rxState == .receiving) (fun t => t.captureLast d false) s hl (beq_iff_eq.mpr hx)

theorem exec_rxTrunc (hx : s.cur.rxState = .receiving) (d : Byte) : exec (.rxTrunc d) s = .next (s.captureLast d true) :=
  happens_of (fun t => t.cur.rxState == .receiving) (fun t => t.captureLast d true) s hl (beq_iff_eq.mpr hx)

/-- R223 to R225: the three operations that take a byte inside a frame do with it what `capture` does; the last byte also ends
the frame with its marker. -/
theorem exec_of_capture {d : Byte} {u : State} (hx : s.cur.rxState = .receiving) (hu : s.capture d = u) :
    exec (.rxData d) s = .next u ∧
      exec (.rxEnd d) s = .next (u.write fun r => { r with rxTrunc := false, rxState := .validating }) ∧
      exec (.rxTrunc d) s = .next (u.write fun r => { r with rxTrunc := true, rxState := .validating }) := by
  subst hu
  exact ⟨exec_rxData hl hx d, exec_rxEnd hl hx d, exec_rxTrunc hl hx d⟩

end Capture

theorem capture_of_room {s : State} (d : Byte) (h : s.cur.rxStage.length < maxFrame s.par) :
    s.capture d = s.write fun r => { r with rxStage := s.cur.rxStage ++ [d] } := if_pos h

theorem capture_of_full {s : State} (d : Byte) (h : maxFrame s.par ≤ s.cur.rxStage.length) :
    s.capture d = s.write fun r => { r with rxOversize := true } := if_neg (Nat.not_lt.mpr h)

/-- Settles O24. -/
theorem startOrStrayByte : Obligations.StartOrStrayByte := fun _ hl hx =>
  ⟨exec_rxStart hl hx true, exec_rxStart hl hx false, exec_rxStray hl hx⟩

/-- Settles O25: on either side of MAX_FRAME by what `capture` does there. -/
theorem frameBytesCaptured : Obligations.FrameBytesCaptured := fun d _ hl hx =>
  ⟨fun hroom => exec_of_capture hl hx (capture_of_room d hroom),
    fun hfull => exec_of_capture hl hx (capture_of_full d hfull)⟩

/-! ### Validation, R230 to R236 -/

theorem validates_of {s : State} {c : VClass} (hx : s.cur.rxState = .validating) (hc : s.rxClass = c) :
    s.validates c = true := by
  rw [State.validates, hx, hc, beq_self_eq_true, beq_self_eq_true, Bool.and_self]

section Validation
variable {s : State} (hl : s.line.live = true) (hx : s.cur.rxState = .validating)
include hl hx

theorem exec_rxAccept (hc : s.rxClass = .accept) : exec .rxAccept s = .next s.acceptFrame :=
  happens_of (fun t => t.validates .accept) _ s hl (validates_of hx hc)

theorem exec_rxDup (hc : s.rxClass = .duplicate) :
    exec .rxDup s = .next ((s.schedNow true (seqDec s.cur.nrs)).releaseStaging .idle) :=
  happens_of (fun t => t.validates .duplicate) (fun t => (t.schedNow true (seqDec t.cur.nrs)).releaseStaging .idle) s hl
    (validates_of hx hc)

theorem exec_rxGap (hc : s.rxClass = .gap) : exec .rxGap s = .next s.raiseNak :=
  happens_of (fun t => t.validates .gap) _ s hl (validates_of hx hc)

theorem exec_rxCorrupt (hc : s.rxClass = .corrupt) : exec .rxCorrupt s = .next s.raiseNak :=
  happens_of (fun t => t.validates .corrupt) _ s hl (validates_of hx hc)

end Validation

/-- R238, R240: a `sched` from R230 to R236, the whole next state. -/
theorem schedNow_eq (s : State) (positive : Bool) (i : Seq) :
    s.schedNow positive i =
      { s with
        schedd := true
        nxt := { s.nxt with ctlPending := true, ctlPositive := positive, ctlId := i, ackTimer := 0 } } := rfl

/-- R232, R233: the whole next state. -/
theorem raiseNak_eq (s : State) :
    s.raiseNak =
      if s.cur.nakScheduled = true then
        { s with nxt := { s.nxt with rxStage := [], rxTrunc := false, rxOversize := false, rxState := .idle } }
      else
        { s with
          schedd := true
          nxt := { s.nxt with rxStage := [], rxTrunc := false, rxOversize := false, rxState := .idle, ctlPending := true,
                              ctlPositive := false, ctlId := s.cur.nrs - 1, ackTimer := 0, nakScheduled := true } } := by
  obtain ⟨hn, he⟩ | ⟨hn, he⟩ := raiseNak_cases s
  · rw [he, if_pos hn]
    rfl
  · rw [he, if_neg (Bool.eq_false_iff.mp hn), schedNow_eq]
    rfl

/-- Settles O26: deferred or scheduled by `acceptFrame_cases`. -/
theorem acceptDelivers : Obligations.AcceptDelivers := by
  intro b0 b1 p s hl hx ht ho hs hid q r
  have hframe : s.Received b0 b1 p _ := ⟨hs, ht, ho⟩
  have hclass : s.rxClass = .accept := by rw [hframe.rxClass_of_match, if_pos hid.symm]
  have hrxId : rxId s.cur.rxStage = s.cur.nrs := by rw [hs, rxId_cons_cons, hid]
  have hpayload : rxPayload s.cur.rxStage = p := by rw [hs, rxPayload_received]
  have hlength : q.length = s.nxt.rxq.length + 1 := List.length_append
  obtain ⟨hfull, he⟩ | ⟨hroom, he⟩ := acceptFrame_cases s
  · refine ⟨fun _ => ?deferred, fun hne => absurd (hlength.trans hfull) hne⟩
    case deferred =>
      rw [exec_rxAccept hl hx hclass, he, hrxId, hpayload]
      rfl
  · refine ⟨fun heq => absurd (hlength.symm.trans heq) hroom, fun _ => ?scheduled⟩
    case scheduled =>
      rw [exec_rxAccept hl hx hclass, he, hrxId, hpayload, schedNow_eq]
      rfl

/-- Settles O27. -/
theorem duplicateReacknowledged : Obligations.DuplicateReacknowledged := by
  intro b0 b1 p s hl hx ht ho hs hbehind hhalf
  have hframe : s.Received b0 b1 p _ := ⟨hs, ht, ho⟩
  have hclass : s.rxClass = .duplicate := by
    rw [hframe.rxClass_of_match, if_neg (ne_of_one_le_dist hbehind), if_pos hhalf]
  rw [exec_rxDup hl hx hclass, schedNow_eq]
  rfl

/-- Settles O28: every way to be Gap or Corrupt leads to `raiseNak`. -/
theorem gapAndCorruptAnsweredByNak : Obligations.GapAndCorruptAnsweredByNak := by
  intro s hl hx r t
  have hnak : s.raiseNak = t := raiseNak_eq s
  rw [← hnak]
  refine ⟨fun b0 b1 p ht ho hs hfar => exec_rxGap hl hx ?gap, fun hbad => exec_rxCorrupt hl hx ?corrupt⟩
  case gap =>
    have hframe : s.Received b0 b1 p _ := ⟨hs, ht, ho⟩
    have hne := ne_of_one_le_dist (le_trans (by decide) hfar.le)
    rw [hframe.rxClass_of_match, if_neg hne, if_neg (Nat.not_le.mpr hfar)]
  case corrupt =>
    by_cases hmal : s.cur.rxStage.length < 6 ∨ s.cur.rxTrunc = true ∨ s.cur.rxOversize = true
    · exact rxClass_of_malformed hmal
    · simp only [not_or, Bool.not_eq_true] at hmal
      obtain ⟨hlen, ht, ho⟩ := hmal
      simp only [hlen, ht, ho, Bool.false_eq_true, false_or] at hbad
      obtain ⟨b0, b1, p, c, hs, hc⟩ := hbad
      exact State.Received.rxClass_of_mismatch ⟨hs, ht, ho⟩ hc

theorem spaceFound_iff (s : State) :
    s.spaceFound = true ↔ s.cur.rxState = .waitspace ∧ s.cur.rxq.length < s.par.rxCap := by
  rw [State.spaceFound, Bool.and_eq_true, beq_iff_eq, decide_eq_true_iff, State.rxqCount]

theorem exec_rxSpace {s : State} (hl : s.line.live = true) (hf : s.spaceFound = true) :
    exec .rxSpace s = .next ((s.schedNow true (seqDec s.cur.nrs)).write fun r => { r with rxState := .idle }) :=
  happens_of State.spaceFound (fun t => (t.schedNow true (seqDec t.cur.nrs)).write fun r => { r with rxState := .idle }) s
    hl hf

/-- Settles O29. -/
theorem spaceSendsDeferredAck : Obligations.SpaceSendsDeferredAck := by
  intro s hl hx
  refine ⟨fun hroom => ?room, fun hfull => ?full⟩
  case room =>
    rw [exec_rxSpace hl ((spaceFound_iff s).mpr ⟨hx, hroom⟩), schedNow_eq]
    rfl
  case full =>
    have hno : s.spaceFound = false := Bool.eq_false_iff.mpr fun h => Nat.not_lt.mpr hfull ((spaceFound_iff s).mp h).2
    exact (instr_inertOutsideCondition .rxSpace s).1 hl hno

/-! ### Control messages, keep-alive and the receive queue, R239 to R243 -/

theorem exec_ctlSend {s : State} (hl : s.line.live = true) (hp : s.cur.ctlPending = true) :
    let o := s.drive fun o => { o with ctlTxValid := true, ctlTxPositive := s.cur.ctlPositive, ctlTxId := s.cur.ctlId }
    exec (.ctlSend s.cur.ctlPositive s.cur.ctlId) s =
      .next (if s.line.ctlTxReady then o.write fun r => { r with ctlPending := false } else o) := by
  intro o
  simp only [exec, execCtlSend]
  rw [happens_of _ _ s hl (by simp [hp])]

/-- R240, line 3, as a proposition. -/
theorem ackExpires_iff (s : State) :
    s.ackExpires = true ↔
      s.schedd = false ∧ s.cur.rxState ≠ .waitspace ∧ s.par.ackLimit ≤ s.cur.ackTimer + 1 := by
  simp only [State.ackExpires, Bool.and_eq_true, Bool.not_eq_true', bne_iff_ne, decide_eq_true_iff, and_assoc]

theorem exec_rxKeepalive {s : State} (hl : s.line.live = true) (he : s.ackExpires = true) :
    let u := s.write fun r => { r with ackTimer := 0 }
    exec .rxKeepalive s = .next (if s.cur.ctlPending then u else u.sched true (seqDec s.cur.nrs)) := by
  intro u
  simp only [exec, execRxKeepalive]
  rw [happens_of _ _ s hl he]

theorem exec_rxqPop_cons {s : State} {e : RxEntry} {rest : List RxEntry} (hl : s.line.live = true)
    (hq : s.cur.rxq = e :: rest) : exec .rxqPop s = .next (s.write fun r => { r with rxq := rest }) := by
  simp only [exec, execRxqPop]
  rw [happens_of _ _ s hl (by simp [State.rxqCount, hq]), hq, List.tail_cons]

theorem exec_rxqPop_nil {s : State} (hl : s.line.live = true) (hq : s.cur.rxq = []) : exec .rxqPop s = .next s :=
  (instr_inertOutsideCondition .rxqPop s).1 hl (by simp [State.selects, State.rxqCount, hq])

/-- Settles O30. -/
theorem pendingMessageHandedOver : Obligations.PendingMessageHandedOver := by
  intro s hl hp o
  refine ⟨fun hr => ?held, fun hr => ?handedOver⟩
  case held =>
    rw [exec_ctlSend hl hp, hr, if_neg Bool.false_ne_true]
    rfl
  case handedOver =>
    rw [exec_ctlSend hl hp, if_pos hr]
    rfl

/-- Settles O31. -/
theorem keepaliveAcknowledges : Obligations.KeepaliveAcknowledges := by
  intro s hl hsched hx hlimit
  have hx' := exec_rxKeepalive hl ((ackExpires_iff s).mpr ⟨hsched, hx, hlimit⟩)
  refine ⟨fun hp => ?pending, fun hp => ?none⟩
  case pending =>
    rw [hx', if_pos hp]
    rfl
  case none =>
    rw [hx', hp, if_neg Bool.false_ne_true]
    rfl

/-- Settles O32. -/
theorem popRemovesHead : Obligations.PopRemovesHead := fun _ hl =>
  ⟨fun _ _ hq => exec_rxqPop_cons hl hq, exec_rxqPop_nil hl⟩

end Sys2Proof.Machine
end

section
namespace Sys2Proof.Machine

/-! ## The receive engine after a tick, R234, R238 to R244 -/

/-! ### The ack timer and the pending message, R238 to R241 -/

/-- R240: the keep-alive of the tick, by what the validation or RX.SPACE has scheduled in it. -/
theorem beforeExpiry_ackExpires (s : State) : s.beforeExpiry.ackExpires = s.keepsAlive := by
  rw [State.keepsAlive, ← Option.not_isSome]
  rfl

theorem beforeExpiry_keepaliveSends (s : State) :
    s.beforeExpiry.keepaliveSends = (s.keepsAlive && !s.cur.ctlPending) := by
  rw [State.keepaliveSends, beforeExpiry_ackExpires]
  rfl

/-- R240: nothing else is scheduled in the tick of a keep-alive. -/
theorem scheduledNow_of_keepsAlive {s : State} (h : s.keepsAlive = true) : s.scheduledNow = none := by
  simp only [State.keepsAlive, Bool.and_eq_true, Option.isNone_iff_eq_none] at h
  obtain ⟨⟨hnone, -⟩, -⟩ := h
  exact hnone

/-- R238: a message that a validation or RX.SPACE schedules goes without a keep-alive. -/
theorem keepaliveSends_of_scheduled {s : State} {m : Bool × Seq} (h : s.scheduledNow = some m) :
    s.beforeExpiry.keepaliveSends = false := by
  have hk : s.keepsAlive = false := Bool.eq_false_iff.mpr fun hk => by
    rw [scheduledNow_of_keepsAlive hk] at h
    cases h
  rw [beforeExpiry_keepaliveSends, hk, Bool.false_and]

/-- R239: the pending message stays unless it is handed over. -/
theorem ctlPendingKept_self (s : State) :
    s.ctlPendingKept s.cur.ctlPending = (s.cur.ctlPending && !s.line.ctlTxReady) := by
  rw [State.ctlPendingKept]
  cases s.cur.ctlPending <;> cases s.line.ctlTxReady <;> rfl

/-- The pending-control register after a tick: the keep-alive's message, else the one scheduled in the tick, else what the
hand-over leaves. -/
theorem pendingMessage_liveRegs (s : State) :
    (s.liveRegs.ctlPending, s.liveRegs.ctlPositive, s.liveRegs.ctlId) =
      if s.beforeExpiry.keepaliveSends then (true, true, seqDec s.cur.nrs)
      else (s.scheduledNow.map fun m => (true, m)).getD
        (s.ctlPendingKept s.cur.ctlPending, s.cur.ctlPositive, s.cur.ctlId) := by
  simp only [State.liveRegs]
  cases s.beforeExpiry.keepaliveSends <;> cases s.scheduledNow <;> rfl

/-- Settles O45: the three cases of `pendingMessage_liveRegs`. -/
theorem pendingControlAfterTick : Obligations.PendingControlAfterTick := by
  intro s t hl ht
  obtain ⟨-, hcur, -⟩ := step_next_of_live hl ht
  have hmsg := pendingMessage_liveRegs s
  rw [← hcur] at hmsg
  refine ⟨fun positive i hsched => ?scheduled, fun hk hp => ?keepalive, fun hnone hquiet => ?kept⟩
  case scheduled =>
    rw [keepaliveSends_of_scheduled hsched, hsched] at hmsg
    simpa using hmsg
  case keepalive =>
    rw [beforeExpiry_keepaliveSends, hk, hp] at hmsg
    simpa [seqDec] using hmsg
  case kept =>
    have hno : s.beforeExpiry.keepaliveSends = false := by
      rw [beforeExpiry_keepaliveSends]
      obtain hk | hp := hquiet
      · rw [hk, Bool.false_and]
      · rw [hp, Bool.not_true, Bool.and_false]
    rw [hno, hnone, ctlPendingKept_self] at hmsg
    simpa using hmsg

/-- R240: the four lines, one after the other. -/
theorem ackTimerNext_eq (s : State) :
    s.ackTimerNext =
      if s.schedd then 0
      else if s.cur.rxState = .waitspace then 0
      else if s.par.ackLimit ≤ s.cur.ackTimer + 1 then 0
      else s.cur.ackTimer + 1 := by
  rw [State.ackTimerNext, State.ackExpires]
  cases s.schedd with
  | true => rfl
  | false => by_cases hx : s.cur.rxState = .waitspace <;> simp [hx]

/-- Settles O46: the clocking of the timer comes after all else of the tick. -/
theorem ackTimerAfterTick : Obligations.AckTimerAfterTick := by
  intro s t hl ht
  obtain ⟨-, hcur, -⟩ := step_next_of_live hl ht
  rw [hcur]
  exact ackTimerNext_eq s.beforeExpiry

/-! ### The queue, R244, R23, R33 -/

theorem nakScheduledNext_self (s : State) :
    s.nakScheduledNext s.cur.nakScheduled =
      if s.validates .accept then false else s.cur.nakScheduled || (s.validates .gap || s.validates .corrupt) := by
  rw [State.nakScheduledNext]
  cases s.cur.nakScheduled <;> cases s.validates .gap || s.validates .corrupt <;> simp

/-- Settles O47: `queueAfterPop` is the pop, `rxqPushed` the append. -/
theorem receiveQueueAfterTick : Obligations.ReceiveQueueAfterTick := by
  intro s t hl ht
  obtain ⟨-, hcur, -⟩ := step_next_of_live hl ht
  rw [hcur]
  intro accepted nakked q
  have hnakked : nakked = (s.validates .gap || s.validates .corrupt) := Bool.and_or_distrib_left _ _ _
  refine ⟨rfl, rfl, ?nak⟩
  case nak =>
    rw [hnakked]
    exact nakScheduledNext_self s

/-! ### The moves of `rx_state`, R234 -/

section Moves
variable {s : State}

theorem rxStateNext_of_idle (hx : s.cur.rxState = .idle) (old : RxState) :
    s.rxStateNext old =
      if beatWordValid s.line.bw ∧ beatWordSof s.line.bw then
        (if beatWordEof s.line.bw then .validating else .receiving)
      else old := by
  cases hv : beatWordValid s.line.bw <;> cases hs : beatWordSof s.line.bw <;>
    simp [State.rxStateNext, State.frameCloses, State.frameOpens, State.byteCaptured, State.spaceFound, hx, hv, hs]

/-- R234: without an end marker the engine stays where it is. -/
theorem rxStateNext_of_receiving (hx : s.cur.rxState = .receiving) (old : RxState) :
    s.rxStateNext old = if beatWordValid s.line.bw ∧ beatWordEof s.line.bw then .validating else old := by
  simp [State.rxStateNext, State.frameCloses, State.frameOpens, State.byteCaptured, State.spaceFound, hx]

theorem ackDeferred_iff (hx : s.cur.rxState = .validating) :
    s.ackDeferred = true ↔ s.rxClass = .accept ∧ s.queueAfterPop.length + 1 = s.par.rxCap := by
  rw [State.ackDeferred, State.validates, hx, beq_self_eq_true, Bool.true_and, Bool.and_eq_true, beq_iff_eq, beq_iff_eq]

theorem rxStateNext_of_validating (hx : s.cur.rxState = .validating) (old : RxState) :
    s.rxStateNext old =
      if s.rxClass = .accept ∧ s.queueAfterPop.length + 1 = s.par.rxCap then .waitspace else .idle := by
  rw [← if_congr (ackDeferred_iff hx) rfl rfl]
  simp [State.rxStateNext, State.frameCloses, State.frameOpens, State.byteCaptured, hx]

theorem rxStateNext_of_waitspace (hx : s.cur.rxState = .waitspace) (old : RxState) :
    s.rxStateNext old = if s.cur.rxq.length < s.par.rxCap then .idle else old := by
  rw [← if_congr ((spaceFound_iff s).trans (and_iff_right hx)) rfl rfl]
  simp [State.rxStateNext, State.frameCloses, State.frameOpens, State.byteCaptured, hx]

end Moves

/-- Settles O50: with the link down by the reset values, else state by state. -/
theorem receiverMoves : Obligations.ReceiverMoves := by
  intro s t ht
  refine ⟨fun hl => ?down, fun hl => ?up⟩
  case down =>
    obtain ⟨-, hcur, -⟩ := step_next_of_down hl ht
    rw [hcur]
    rfl
  case up =>
    obtain ⟨-, hcur, -⟩ := step_next_of_live hl ht
    have hnext : t.cur.rxState = s.rxStateNext s.cur.rxState := by rw [hcur]; rfl
    intro w q
    rw [hnext]
    refine ⟨fun hx => ?idle, fun hx => ?receiving, fun hx => ?validating, fun hx => ?waitspace⟩
    case idle => rw [rxStateNext_of_idle hx, hx]
    case receiving => rw [rxStateNext_of_receiving hx, hx]
    case validating => exact rxStateNext_of_validating hx _
    case waitspace => rw [rxStateNext_of_waitspace hx, hx]

/-! ### The outputs but for the transmit stream, R220, R239, R243, R265, R267 -/

/-- The outputs with the six of R171 blanked out. -/
def PortOut.offStream (o : PortOut) : PortOut :=
  { o with txValid := false, txData := 0, txSof := false, txEof := false, txBad := false, upReady := false }

theorem framerDrives_offStream (s : State) (o : PortOut) : (s.framerDrives o).offStream = o.offStream := by
  rw [State.framerDrives]
  repeat' split
  all_goals rfl

theorem replayDrives_offStream (s : State) (o : PortOut) : (s.replayDrives o).offStream = o.offStream := by
  rw [State.replayDrives]
  split <;> rfl

/-- What a tick with the link up drives beside the transmit stream. -/
theorem liveOut_offStream {s : State} (hl : s.line.live = true) :
    s.liveOut.offStream =
      { PortOut.zero with
        dlUp := true, rxReady := s.rxReady, ctlTxValid := s.cur.ctlPending
        ctlTxPositive := s.cur.ctlPending && s.cur.ctlPositive, ctlTxId := if s.cur.ctlPending then s.cur.ctlId else 0
        rxqValid := decide (0 < s.rxqCount), rxqId := (s.cur.rxq.head?.map RxEntry.id).getD 0
        rxqBytes := (s.cur.rxq.head?.map RxEntry.payload).getD []
        stTxSeq := s.cur.nts, stRxSeq := s.cur.nrs, stRbCount := s.rbCount, stRxqCount := s.rxqCount
        stReplayCount := s.cur.replayCount, stRbFull := s.rbFull, stRbEmpty := s.rbEmpty } := by
  rw [State.liveOut, framerDrives_offStream, replayDrives_offStream, State.baseOut, if_pos hl, State.messageDrives]
  cases s.cur.ctlPending <;> rfl

theorem rxReady_eq (s : State) : s.rxReady = decide (s.cur.rxState = .idle ∨ s.cur.rxState = .receiving) := by
  rw [State.rxReady, Bool.decide_or, beq_eq_decide, beq_eq_decide]

/-! R36: the counts and tests of the buffer by its occupied slots. -/
theorem rbCount_eq (s : State) : s.rbCount = (s.cur.slots.filter fun sl => sl.occ).length :=
  List.countP_eq_length_filter

theorem rbFull_eq (s : State) :
    s.rbFull = decide ((s.cur.slots.filter fun sl => sl.occ).length = s.par.nSlots) := by
  rw [State.rbFull, rbCount_eq, beq_eq_decide]

theorem rbEmpty_eq (s : State) : s.rbEmpty = decide ((s.cur.slots.filter fun sl => sl.occ).length = 0) := by
  rw [State.rbEmpty, rbCount_eq, beq_eq_decide]

/-- R265: `dl_up` is the link's state. -/
theorem dlUp_eq {s t : State} (ht : step s = .next t) : t.out.dlUp = s.line.live := by
  cases hl : s.line.live with
  | true =>
    obtain ⟨-, -, hout⟩ := step_next_of_live hl ht
    rw [hout]
    exact congrArg PortOut.dlUp (liveOut_offStream hl)
  | false =>
    obtain ⟨-, -, hout⟩ := step_next_of_down hl ht
    rw [hout]
    rfl

/-- Settles O52: output by output from `liveOut_offStream`. -/
theorem otherOutputs : Obligations.OtherOutputs := by
  intro s t ht
  refine ⟨dlUp_eq ht, fun hl => ?up⟩
  case up =>
    obtain ⟨-, -, hout⟩ := step_next_of_live hl ht
    have hoff : t.out.offStream = _ := (congrArg PortOut.offStream hout).trans (liveOut_offStream hl)
    rw [← rxReady_eq, ← rbFull_eq, ← rbEmpty_eq, ← rbCount_eq]
    refine ⟨congrArg PortOut.rxReady hoff, congrArg PortOut.ctlTxValid hoff, congrArg PortOut.ctlTxPositive hoff,
      congrArg PortOut.ctlTxId hoff, fun hq => ?empty, fun e rest hq => ?headed, congrArg PortOut.stTxSeq hoff,
      congrArg PortOut.stRxSeq hoff, congrArg PortOut.stRbCount hoff, congrArg PortOut.stRxqCount hoff,
      congrArg PortOut.stReplayCount hoff, congrArg PortOut.stRbFull hoff, congrArg PortOut.stRbEmpty hoff⟩
    all_goals
      rw [State.rxqCount, hq] at hoff
      exact ⟨congrArg PortOut.rxqValid hoff, congrArg PortOut.rxqId hoff, congrArg PortOut.rxqBytes hoff⟩

end Sys2Proof.Machine
end

section
namespace Sys2Proof.Machine

/-! ## The synchronizer, R262 to R267 -/

/-! ### LINK.DOWN, R262, R263 -/

/-- R263: a link word with `rst = 1` or `link_up = 0` resets, whatever the state is. -/
theorem exec_linkDown_of_down {rst linkUp : Bool} (s : State) (h : (rst || !linkUp) = true) :
    exec (.linkDown rst linkUp) s = .next s.resetNow := by
  simp only [exec, execLinkDown, always, h, if_true]

/-- R262: the link is down for the tick as soon as one of its two inputs says so. -/
theorem live_eq_false_iff (l : Line) : l.live = false ↔ l.linkUp = false ∨ l.rst = true := by
  rw [Line.live, Bool.and_eq_false_iff, Bool.not_eq_false']

/-- Settles O33: the slots of the reset registers are the free ones asked for. -/
theorem linkDownResets : Obligations.LinkDownResets := by
  intro rst up s h
  have hdown : (rst || !up) = true := by rwa [Bool.or_eq_true, Bool.not_eq_true']
  exact ⟨(Regs.reset s.par).slots, reset_slots_length s.par, reset_slots_free s.par, exec_linkDown_of_down s hdown⟩

/-- Settles O39: with the link down the tick ends in the reset registers, and every slot of those is free. -/
theorem linkDownTickResets : Obligations.LinkDownTickResets := by
  intro s hwf h
  have hdown : s.line.live = false := (live_eq_false_iff s.line).mpr h
  exact ⟨_, step_of_down s hwf hdown, rfl, rfl, reset_slots_length s.par, reset_slots_free s.par⟩

/-! ### STATUS, R267 -/

/-- R267: with the link up STATUS drives the status outputs and does nothing else. -/
theorem exec_status {s : State} (hl : s.line.live = true) : exec .status s = .next (s.drive s.statusDrives) :=
  happens_of (fun _ => true) (fun t => t.drive t.statusDrives) s hl rfl

/-- Settles O34: the occupancy, full and empty of R36 are read off the occupied slots. -/
theorem statusShowsStartOfTick : Obligations.StatusShowsStartOfTick := by
  intro s hl
  rw [exec_status hl, ← rbFull_eq, ← rbEmpty_eq, ← rbCount_eq]
  rfl

end Sys2Proof.Machine
end

section
namespace Sys2Proof.Machine

/-! ## A tick always ends, R104, R287, R330 -/

/-- Log entry 13: a block built outside R7 makes no tick. -/
theorem step_of_not_wf (s : State) (h : s.par.wf = false) : step s = .refused .parametersOutOfRange :=
  if_neg (by rw [h]; exact Bool.false_ne_true)

/-- R104, R287: a block built within R7 makes its tick whether the link is up or down, and the tick uses up one line. -/
theorem exists_step_next_of_wf (s : State) (h : s.par.wf = true) :
    ∃ t, step s = .next t ∧ t.inputs = s.inputs.tail := by
  cases hl : s.line.live with
  | true => exact ⟨_, step_of_live s h hl, rfl⟩
  | false => exact ⟨_, step_of_down s h hl, rfl⟩

/-- Settles O38: the parameters alone decide whether the tick answers, and R44 keeps them. -/
theorem everyTickHasANextState : Obligations.EveryTickHasANextState := by
  intro s
  refine ⟨fun hwf => ?next, fun hbad => step_of_not_wf s hbad⟩
  case next =>
    obtain ⟨t, ht, hinputs⟩ := exists_step_next_of_wf s hwf
    exact ⟨t, ht, step_next_par ht, hinputs⟩

end Sys2Proof.Machine
end
